-- ==== Sys2Proof/Word.lean ====
section
/-! DEFINITION. The word types of the block: host words, register addresses, frame bytes and the
indices a command names. -/

namespace Sys2Proof

/-- A frame byte or a byte of the normalised buffer, 8 bits (R13). -/
abbrev Byte := BitVec 8

/-- A host register and a command word, `REG_WIDTH` = 32 bits (R7, R41, R60). -/
abbrev Word := BitVec 32

/-- A word address of the host register space, `REG_ADDR_WIDTH` = 8 bits (R7, R40). -/
abbrev RegAddr := BitVec 8

/-- An index into FRAME or NB: a legal IA or IB is 0..8 (R21, R22, R62). -/
abbrev ByteIndex := Fin 9

/-- The command field INST, 4 bits (R61). Which values are legal depends on NUM_RAIN_INST (R62). -/
abbrev InstIndex := Fin 16

end Sys2Proof
end

