-- ==== Sys2Proof/Config.lean ====
section
/-! DEFINITION. The implementation parameters of R7. FRAME_BYTES, REG_WIDTH, REG_ADDR_WIDTH and
BITLEN_WIDTH are fixed by the types. PARITY_SENSE and NUM_RAIN_INST are carried by the state, so that
every statement holds for each admissible value; here stand their defaults (notes/assumptions/3.md). -/

namespace Sys2Proof

/-- The parameter PARITY_SENSE (R7, R81; 90_conflicts.md C3). -/
inductive ParitySense where
  /-- `FLAG_ODD_COUNT`, the spec's resolution: bit 7 flags an odd count in the low 7 bits. -/
  | flagOddCount
  /-- `TOTAL_ODD`, the named alternative: the whole byte holds an odd number of ones. -/
  | totalOdd
deriving DecidableEq, Repr

namespace Config

/-- PARITY_SENSE of a block that nothing says otherwise about (R7). -/
def paritySenseDefault : ParitySense := .flagOddCount

/-- NUM_RAIN_INST of a block that nothing says otherwise about (R7: 1..16, default 1). -/
def numRainInstDefault : Nat := 1

/-- The largest NUM_RAIN_INST (R7). -/
def numRainInstMax : Nat := 16

/-- BLOCK_BASE (R7, R54): where the platform puts the block's 256 words. OPEN in the spec, so it has
no body, and no rule of the block reads it (notes/assumptions/10.md). -/
opaque blockBase : Nat

/-- RAIN_IN_PER_COUNT (R7) in hundredths of an inch. A host-side scale that no rule of the block uses
(notes/assumptions/10.md). -/
def rainHundredthsInPerCount : Nat := 1

end Config

end Sys2Proof
end

