-- ==== Sys2Proof/Syntax.lean ====
section
/-! DEFINITION. The commands of the block: one constructor per row of the opcode map (R63). -/

namespace Sys2Proof

/-- A command with its operands, in the order IA, IB, INST of R70. A byte operand is an index into NB
(R62); a rain operand is the INST field. -/
inductive Instr where
  /-- No operation (R140). -/
  | nop
  /-- 5-in-1 validator (R84). -/
  | val5
  /-- Rain-gauge structural validator (R87). -/
  | valrg
  /-- Basic temp/humidity validator (R89). -/
  | valth
  /-- Parity temp/humidity (592) validator (R92). -/
  | val592
  /-- 5-in-1 message type (R101). -/
  | mtype5
  /-- 5-in-1 temperature (R102). -/
  | temp5 (ia ib : ByteIndex)
  /-- Basic TH temperature (R103). -/
  | tempth (ia ib : ByteIndex)
  /-- 592 temperature, in °C and °F (R105). -/
  | temp592 (ia ib : ByteIndex)
  /-- Wind speed (R107). -/
  | wspd (ia ib : ByteIndex)
  /-- Wind direction (R108). -/
  | wdir (ia : ByteIndex)
  /-- Humidity (R109). -/
  | hum (ia : ByteIndex)
  /-- Raw 14-bit rainfall counter (R110). -/
  | rain14 (ia ib : ByteIndex)
  /-- Rain-gauge bucket total (R111). -/
  | rgtotal (ia ib : ByteIndex)
  /-- Rain delta against the baseline (R131). -/
  | rdelta (ia ib : ByteIndex) (inst : InstIndex)
  /-- Clear one baseline (R134). -/
  | rclr (inst : InstIndex)
deriving DecidableEq, Repr

/-- The mnemonic of a command, as R63 and R70 write it. -/
def Instr.mnemonic : Instr → String
  | .nop => "NOP"
  | .val5 => "VAL5"
  | .valrg => "VALRG"
  | .valth => "VALTH"
  | .val592 => "VAL592"
  | .mtype5 => "MTYPE5"
  | .temp5 _ _ => "TEMP5"
  | .tempth _ _ => "TEMPTH"
  | .temp592 _ _ => "TEMP592"
  | .wspd _ _ => "WSPD"
  | .wdir _ => "WDIR"
  | .hum _ => "HUM"
  | .rain14 _ _ => "RAIN14"
  | .rgtotal _ _ => "RGTOTAL"
  | .rdelta _ _ _ => "RDELTA"
  | .rclr _ => "RCLR"

end Sys2Proof
end

