-- ==== Sys2Proof/WellFormed.lean ====
section
/-! DEFINITION. Which commands a block with `numInst` rain instances accepts (R64). The range of IA and
IB, and the zero unused fields, are facts of the syntax: a `ByteIndex` is 0..8 and a constructor carries
only the operands of its class. What is left is the range of INST. -/

namespace Sys2Proof

/-- R64's last requirement: INST < NUM_RAIN_INST, for the two commands that name an instance. -/
def Instr.wellFormed (numInst : Nat) : Instr → Bool
  | .nop => true
  | .val5 => true
  | .valrg => true
  | .valth => true
  | .val592 => true
  | .mtype5 => true
  | .temp5 _ _ => true
  | .tempth _ _ => true
  | .temp592 _ _ => true
  | .wspd _ _ => true
  | .wdir _ => true
  | .hum _ => true
  | .rain14 _ _ => true
  | .rgtotal _ _ => true
  | .rdelta _ _ inst => decide (inst.val < numInst)
  | .rclr inst => decide (inst.val < numInst)

end Sys2Proof
end

