-- ==== Sys2Proof/Decode.lean ====
section
/-! DEFINITION. From a command word to a command and back (R60 to R67). The decoder is total on all
2^32 words and names the reason of each rejection; the block itself records none of them (R153). -/

namespace Sys2Proof

/-- Why a word is no legal command (R65). The block reports all of them as ILLEGAL_COMMAND. -/
inductive IllegalWord where
  /-- OPC 0x00 in a word that is not 0: NOP is the whole word 0x00000000 (R64). -/
  | nopWithFields
  /-- An OPC that R63 does not allocate. -/
  | unallocatedOpcode
  /-- RES, bits 31:20, is not 0. -/
  | reservedBits
  /-- An operand field the command does not use is not 0. -/
  | unusedField
  /-- IA or IB is above 8. -/
  | byteIndex
  /-- INST is not below NUM_RAIN_INST. -/
  | rainInstance
deriving DecidableEq, Repr

/-! ### The fields of format F0 (R61) -/

/-- OPC, bits 7:0. -/
def opcField (w : Word) : Nat := (w.extractLsb' 0 8).toNat

/-- IA, bits 11:8. -/
def iaField (w : Word) : Nat := (w.extractLsb' 8 4).toNat

/-- IB, bits 15:12. -/
def ibField (w : Word) : Nat := (w.extractLsb' 12 4).toNat

/-- INST, bits 19:16. -/
def instField (w : Word) : Nat := (w.extractLsb' 16 4).toNat

/-- RES, bits 31:20. -/
def resField (w : Word) : Nat := (w.extractLsb' 20 12).toNat

/-! ### Operand classes (R63, R64) -/

/-- The operand class of an opcode, with the command that its operands make. -/
inductive OperandClass where
  | none (i : Instr)
  | a (mk : ByteIndex → Instr)
  | ab (mk : ByteIndex → ByteIndex → Instr)
  | abInst (mk : ByteIndex → ByteIndex → InstIndex → Instr)
  | inst (mk : InstIndex → Instr)

/-- The opcode map of R63, all but NOP (R64 decodes NOP from the whole word). -/
def opcodeMap : Nat → Option OperandClass
  | 0x01 => some (.none .val5)
  | 0x02 => some (.none .valrg)
  | 0x03 => some (.none .valth)
  | 0x04 => some (.none .val592)
  | 0x10 => some (.none .mtype5)
  | 0x11 => some (.ab .temp5)
  | 0x12 => some (.ab .tempth)
  | 0x13 => some (.ab .temp592)
  | 0x14 => some (.ab .wspd)
  | 0x15 => some (.a .wdir)
  | 0x16 => some (.a .hum)
  | 0x17 => some (.ab .rain14)
  | 0x18 => some (.ab .rgtotal)
  | 0x20 => some (.abInst .rdelta)
  | 0x21 => some (.inst .rclr)
  | _ => none

/-- A byte operand: legal when at most 8 (R62, R64). -/
def byteOperand (n : Nat) : Except IllegalWord ByteIndex :=
  if h : n < 9 then .ok ⟨n, h⟩ else .error .byteIndex

/-- A rain operand: legal when below NUM_RAIN_INST (R62, R64). -/
def rainOperand (numInst n : Nat) : Except IllegalWord InstIndex :=
  if h : n < 16 then
    if n < numInst then .ok ⟨n, h⟩ else .error .rainInstance
  else .error .rainInstance

/-- The operands of a word, checked by the command's class: R64's `case operand class of opc`. -/
def readOperands (numInst : Nat) (w : Word) : OperandClass → Except IllegalWord Instr
  | .none i =>
    if iaField w = 0 ∧ ibField w = 0 ∧ instField w = 0 then .ok i else .error .unusedField
  | .a mk =>
    if ibField w = 0 ∧ instField w = 0 then
      match byteOperand (iaField w) with
      | .ok ia => .ok (mk ia)
      | .error e => .error e
    else .error .unusedField
  | .ab mk =>
    if instField w = 0 then
      match byteOperand (iaField w), byteOperand (ibField w) with
      | .ok ia, .ok ib => .ok (mk ia ib)
      | .error e, _ => .error e
      | .ok _, .error e => .error e
    else .error .unusedField
  | .abInst mk =>
    match byteOperand (iaField w), byteOperand (ibField w), rainOperand numInst (instField w) with
    | .ok ia, .ok ib, .ok inst => .ok (mk ia ib inst)
    | .error e, _, _ => .error e
    | .ok _, .error e, _ => .error e
    | .ok _, .ok _, .error e => .error e
  | .inst mk =>
    if iaField w = 0 ∧ ibField w = 0 then
      match rainOperand numInst (instField w) with
      | .ok inst => .ok (mk inst)
      | .error e => .error e
    else .error .unusedField

/-- The decoder of R64, for a block with `numInst` rain instances. -/
def decode (numInst : Nat) (w : Word) : Except IllegalWord Instr :=
  if w = 0#32 then .ok .nop
  else if opcField w = 0 then .error .nopWithFields
  else
    match opcodeMap (opcField w) with
    | none => .error .unallocatedOpcode
    | some c => if resField w ≠ 0 then .error .reservedBits else readOperands numInst w c

/-- The instruction the decoder reads from a row's bits `w`, `nbits` of them, in a block with the
default NUM_RAIN_INST, which is what `State.reset` has (notes/assumptions/8.md). A command is one
32-bit word delivered whole (R41, R60), so its bits are the word's bits. -/
def decodeTableWord (nbits w : Nat) : Option Instr :=
  match decode Config.numRainInstDefault (BitVec.ofNat 32 (w % 2 ^ nbits)) with
  | .ok i => some i
  | .error _ => none

/-! ### The encoder (R67) -/

/-- `enc(OPC, IA, IB, INST)` of R67. -/
def enc (opc ia ib inst : Nat) : Word :=
  BitVec.ofNat 32 (opc ||| (ia <<< 8) ||| (ib <<< 12) ||| (inst <<< 16))

/-- The opcode of a command (R63). -/
def opcodeOf : Instr → Nat
  | .nop => 0x00
  | .val5 => 0x01
  | .valrg => 0x02
  | .valth => 0x03
  | .val592 => 0x04
  | .mtype5 => 0x10
  | .temp5 _ _ => 0x11
  | .tempth _ _ => 0x12
  | .temp592 _ _ => 0x13
  | .wspd _ _ => 0x14
  | .wdir _ => 0x15
  | .hum _ => 0x16
  | .rain14 _ _ => 0x17
  | .rgtotal _ _ => 0x18
  | .rdelta _ _ _ => 0x20
  | .rclr _ => 0x21

/-- The word of a command (R66, R67): an argument the command does not have is 0. -/
def encode (i : Instr) : Word :=
  match i with
  | .nop => enc (opcodeOf i) 0 0 0
  | .val5 => enc (opcodeOf i) 0 0 0
  | .valrg => enc (opcodeOf i) 0 0 0
  | .valth => enc (opcodeOf i) 0 0 0
  | .val592 => enc (opcodeOf i) 0 0 0
  | .mtype5 => enc (opcodeOf i) 0 0 0
  | .temp5 ia ib => enc (opcodeOf i) ia ib 0
  | .tempth ia ib => enc (opcodeOf i) ia ib 0
  | .temp592 ia ib => enc (opcodeOf i) ia ib 0
  | .wspd ia ib => enc (opcodeOf i) ia ib 0
  | .wdir ia => enc (opcodeOf i) ia 0 0
  | .hum ia => enc (opcodeOf i) ia 0 0
  | .rain14 ia ib => enc (opcodeOf i) ia ib 0
  | .rgtotal ia ib => enc (opcodeOf i) ia ib 0
  | .rdelta ia ib inst => enc (opcodeOf i) ia ib inst
  | .rclr inst => enc (opcodeOf i) 0 0 inst

/-! ### The pattern table (R66) -/

/-- The rows of R66: mnemonic, match, mask (90_conflicts.md C13 settles the masks). -/
def patternTable : List (String × Word × Word) :=
  [ ("NOP", 0x00000000, 0xFFFFFFFF),
    ("VAL5", 0x00000001, 0xFFFFFFFF),
    ("VALRG", 0x00000002, 0xFFFFFFFF),
    ("VALTH", 0x00000003, 0xFFFFFFFF),
    ("VAL592", 0x00000004, 0xFFFFFFFF),
    ("MTYPE5", 0x00000010, 0xFFFFFFFF),
    ("TEMP5", 0x00000011, 0xFFFF00FF),
    ("TEMPTH", 0x00000012, 0xFFFF00FF),
    ("TEMP592", 0x00000013, 0xFFFF00FF),
    ("WSPD", 0x00000014, 0xFFFF00FF),
    ("WDIR", 0x00000015, 0xFFFFF0FF),
    ("HUM", 0x00000016, 0xFFFFF0FF),
    ("RAIN14", 0x00000017, 0xFFFF00FF),
    ("RGTOTAL", 0x00000018, 0xFFFF00FF),
    ("RDELTA", 0x00000020, 0xFFF000FF),
    ("RCLR", 0x00000021, 0xFFF0FFFF) ]

end Sys2Proof
end

