-- ==== Sys2Proof/Machine/State.lean ====
section
/-! DEFINITION. All the state the spec gives the block (R33), as plain data, with the three fields of the
model's own: PARITY_SENSE, the host's pending accesses, and the word the last access returned. -/

namespace Sys2Proof.Machine

/-- Nine 8-bit registers, indexed 0..8 in row order: FRAME (R21) and NB (R22). -/
structure Row where
  b0 : Byte
  b1 : Byte
  b2 : Byte
  b3 : Byte
  b4 : Byte
  b5 : Byte
  b6 : Byte
  b7 : Byte
  b8 : Byte
deriving DecidableEq, Repr

/-- The row of nine zero bytes: FRAME and NB after reset (R33). -/
def Row.zero : Row := ⟨0#8, 0#8, 0#8, 0#8, 0#8, 0#8, 0#8, 0#8, 0#8⟩

/-- The values PROTO can hold (R24). The reserved values 5..7 are never held (notes/assumptions/6.md). -/
inductive Proto where
  | none
  | fiveInOne
  | rainGauge
  | basicTh
  | parity592
deriving DecidableEq, Repr

/-- The values STATUS.CODE can hold (R151). The reserved values 9..15 are never produced
(notes/assumptions/6.md). -/
inductive StatusCode where
  | ok
  | checksumMismatch
  | parityMismatch
  | structuralMismatch
  | unknownSubtype
  | notValidated
  | illegalCommand
  | wrongKind
  | skippedBitlen
deriving DecidableEq, Repr

/-- One entry of the baseline register file (R30). -/
structure RainEntry where
  /-- BV: the baseline is set. -/
  bv : Bool
  /-- BVAL: the raw counter of the first rain frame of the session. -/
  bval : BitVec 14
deriving DecidableEq, Repr

/-- An entry after reset or RCLR (R33, R134). -/
def RainEntry.clear : RainEntry := ⟨false, 0#14⟩

/-- What reaches the block from outside: the two host primitives of R41, and power-on reset (R170). -/
inductive HostEvent where
  /-- `HostRead(a)`. -/
  | read (a : RegAddr)
  /-- `HostWrite(a, v)`. -/
  | write (a : RegAddr) (v : Word)
  /-- Power-on reset; how it is signalled is the platform's (notes/assumptions/4.md). -/
  | reset
deriving DecidableEq, Repr

/-- The state of the block. -/
structure State where
  /-- FRAME[0..8], the candidate row (R21). -/
  frame : Row
  /-- NB[0..8], the normalised buffer (R22). -/
  nb : Row
  /-- BITLEN, the row's bit length (R23). -/
  bitlen : BitVec 16
  /-- PROTO, which validator last accepted (R24). -/
  proto : Proto
  /-- STATUS.CODE (R25). -/
  code : StatusCode
  /-- STATUS.PARFAIL (R25, R94). -/
  parfail : BitVec 3
  /-- STATUS.BLSET (R25, R131). -/
  blset : Bool
  /-- STATUS.CSUM (R25, R80). -/
  csum : Byte
  /-- RESULT0 (R28). -/
  result0 : Word
  /-- RESULT1 (R28). -/
  result1 : Word
  /-- CMD, the last word written to address 0x00 (R29). -/
  cmd : Word
  /-- The baseline register file (R30): NUM_RAIN_INST entries, so its length is that parameter. -/
  rain : List RainEntry
  /-- The parameter PARITY_SENSE (R7); no step changes it (notes/assumptions/3.md). -/
  paritySense : ParitySense
  /-- What the host has issued and the block has not yet performed, oldest first
  (notes/assumptions/1.md). -/
  pending : List HostEvent
  /-- The word the last performed access returned to the host, if it returned one
  (notes/assumptions/2.md). -/
  readData : Option Word
deriving DecidableEq, Repr

/-- NUM_RAIN_INST (R7) of the block whose state this is. -/
def State.numRainInst (s : State) : Nat := s.rain.length

/-- The state right after power-on reset (R33, R170) of a block with the given parameters. -/
def State.powerOn (sense : ParitySense) (numInst : Nat) (pending : List HostEvent) : State where
  frame := Row.zero
  nb := Row.zero
  bitlen := 0#16
  proto := .none
  code := .ok
  parfail := 0#3
  blset := false
  csum := 0#8
  result0 := 0#32
  result1 := 0#32
  cmd := 0#32
  rain := List.replicate numInst RainEntry.clear
  paritySense := sense
  pending := pending
  readData := none

/-- The machine right after reset: every element at its value of R33, the parameters at their defaults
of R7, and no access pending. -/
def State.reset : State := State.powerOn Config.paritySenseDefault Config.numRainInstDefault []

/-- Why the machine could stop with a fault: the block has no exceptions, traps or faults (R150), so
there is no reason and no constructor (notes/assumptions/11.md). -/
inductive Fault
deriving DecidableEq, Repr

/-- Why the model could decline an instruction. -/
inductive Refusal where
  /-- Raised by an arm of `exec` whose instruction has no meaning yet; safe. No arm raises it: every
  instruction has its meaning. -/
  | notModelled (mnemonic : String)
deriving DecidableEq, Repr

end Sys2Proof.Machine
end

