-- ==== Sys2Proof/Machine/Flags.lean ====
section
/-! DEFINITION. The status register (R25, R26), the encodings of its fields (R24, R151), and the parity
predicate whose verdicts it reports (R81, R94). -/

namespace Sys2Proof.Machine

/-- PROTO as its 3-bit value (R24). -/
def Proto.toBits : Proto → BitVec 3
  | .none => 0
  | .fiveInOne => 1
  | .rainGauge => 2
  | .basicTh => 3
  | .parity592 => 4

/-- CODE as its 4-bit value (R151). -/
def StatusCode.toBits : StatusCode → BitVec 4
  | .ok => 0
  | .checksumMismatch => 1
  | .parityMismatch => 2
  | .structuralMismatch => 3
  | .unknownSubtype => 4
  | .notValidated => 5
  | .illegalCommand => 6
  | .wrongKind => 7
  | .skippedBitlen => 8

/-- STATUS.VALID, the view of R25: 1 exactly when PROTO is not NONE. -/
def validBit (p : Proto) : Bool := decide (p ≠ .none)

/-- The word STATUS reads as (R25), most significant field first. -/
def statusWord (s : State) : Word :=
  0#8 ++ s.csum ++ 0#4 ++ s.proto.toBits ++ BitVec.ofBool (validBit s.proto)
    ++ BitVec.ofBool s.blset ++ s.parfail ++ s.code.toBits

/-- `set_status(code, parfail, blset, csum)` of R26. -/
def setStatus (code : StatusCode) (parfail : BitVec 3) (blset : Bool) (csum : Byte) (s : State) : State :=
  { s with code := code, parfail := parfail, blset := blset, csum := csum }

/-- `popcount` of R10, on a byte. -/
def popcount (b : Byte) : Nat := ((List.range 8).map fun i => (b.getLsbD i).toNat).sum

/-- `par_ok` of R81, under either value of PARITY_SENSE. -/
def parOk (sense : ParitySense) (b : Byte) : Bool :=
  match sense with
  | .flagOddCount => popcount (b &&& 0x7F) % 2 == (b.getLsbD 7).toNat
  | .totalOdd => popcount b % 2 == 1

/-- The mask `pf` of R92 and R94: bit 0 for byte 3, bit 1 for byte 4, bit 2 for byte 5, set on failure. -/
def parityFailures (sense : ParitySense) (b3 b4 b5 : Byte) : BitVec 3 :=
  BitVec.ofBool (!parOk sense b5) ++ BitVec.ofBool (!parOk sense b4) ++ BitVec.ofBool (!parOk sense b3)

end Sys2Proof.Machine
end

