-- ==== Sys2Proof/Machine/Operands.lean ====
section
/-! DEFINITION. Reading and writing the two operand files by index (R62), the modular sum (R80), the
extensions of R11, and the bit-field formulas of 41_field_decode.md, each transcribed with the source's
masks and shifts (R10: values are unsigned integers). -/

namespace Sys2Proof.Machine

/-- Byte `i` of a row: `FRAME[i]`, `NB[i]` (R12). -/
def Row.get (r : Row) : ByteIndex → Byte
  | 0 => r.b0
  | 1 => r.b1
  | 2 => r.b2
  | 3 => r.b3
  | 4 => r.b4
  | 5 => r.b5
  | 6 => r.b6
  | 7 => r.b7
  | 8 => r.b8

/-- The row with byte `i` replaced: what a host write to FRAME[i] does to FRAME (R44). -/
def Row.set (r : Row) (i : ByteIndex) (v : Byte) : Row :=
  match i with
  | 0 => { r with b0 := v }
  | 1 => { r with b1 := v }
  | 2 => { r with b2 := v }
  | 3 => { r with b3 := v }
  | 4 => { r with b4 := v }
  | 5 => { r with b5 := v }
  | 6 => { r with b6 := v }
  | 7 => { r with b7 := v }
  | 8 => { r with b8 := v }

/-- The bytes of a row, in row order. -/
def Row.toList (r : Row) : List Byte := [r.b0, r.b1, r.b2, r.b3, r.b4, r.b5, r.b6, r.b7, r.b8]

/-- `sum8(buf, lo, hi)` of R80: the unsigned sum of bytes lo..hi, mod 256. -/
def sum8 (r : Row) (lo hi : Nat) : Byte :=
  BitVec.ofNat 8 ((((r.toList.take (hi + 1)).drop lo).map BitVec.toNat).sum)

/-! ### Extensions (R11) -/

/-- `sext_N(v)`: the low N bits of `v` as a two's-complement number. -/
def sext (n v : Nat) : Int := ((v % 2 ^ n : Nat) : Int) - 2 ^ n * ((v >>> (n - 1) % 2 : Nat) : Int)

/-- `tc32(x)`: the 32-bit two's-complement encoding. -/
def tc32 (x : Int) : Word := BitVec.ofInt 32 x

/-! ### Field formulas. The first operand is the source's high or first-named byte (R51). -/

/-- `m` of R101: the low nibble of NB[2]. -/
def messageType (b2 : Byte) : Nat := b2.toNat &&& 0x0F

/-- `raw` of R102. -/
def temp5Raw (hi lo : Byte) : Nat := ((hi.toNat &&& 0x0F) <<< 7) ||| (lo.toNat &&& 0x7F)

/-- `raw12` of R103. -/
def tempthRaw (b1 b2 : Byte) : Nat := ((b1.toNat &&& 0x0F) <<< 8) ||| b2.toNat

/-- `raw` of R105. -/
def temp592Raw (hi lo : Byte) : Nat := ((hi.toNat &&& 0x7F) <<< 7) ||| (lo.toNat &&& 0x7F)

/-- `r0` of R107. -/
def windSpeed (hi lo : Byte) : Nat := ((hi.toNat &&& 0x1F) <<< 3) ||| ((lo.toNat &&& 0x70) >>> 4)

/-- `k` of R108. -/
def compassIndex (b : Byte) : Nat := b.toNat &&& 0x0F

/-- The compass table DIR_TENTHS of R106, in tenths of a degree. -/
def dirTenths (k : Nat) : Nat :=
  [3375, 3150, 2925, 2700, 2475, 2250, 2025, 1800,
   1575, 1350, 1125, 900, 675, 450, 225, 0].getD k 0

/-- `r0` of R109. -/
def humidity (b : Byte) : Nat := b.toNat &&& 0x7F

/-- The raw 14-bit rainfall counter of R110 and R131. -/
def rainCounter (hi lo : Byte) : Nat := ((hi.toNat &&& 0x7F) <<< 7) ||| (lo.toNat &&& 0x7F)

/-- `r0` of R111. -/
def bucketTotal (b1 b2 : Byte) : Nat := ((b1.toNat &&& 0x0F) <<< 8) + b2.toNat

end Sys2Proof.Machine
end

