-- ==== Sys2Proof/Machine/Ops.lean ====
section
/-! DEFINITION. The operations the commands share: `raise` (R12), which stands where other machines take
an exception, since every outcome here is a status code and there is no trap entry and no return (R150,
R157); the field-command template (R100); the validator template (R82); the baseline file (R30). -/

namespace Sys2Proof.Machine

/-- One answer of a meaning or a step. -/
abbrev Result := Host.Outcome State Fault Refusal

/-- `raise <Code>` of R12: write the status and nothing else (R153). -/
def raise (code : StatusCode) (s : State) : State := setStatus code 0#3 false 0#8 s

/-- `RESULT0 <- tc32(r0); RESULT1 <- tc32(r1)`. -/
def setResults (r0 r1 : Int) (s : State) : State := { s with result0 := tc32 r0, result1 := tc32 r1 }

/-- The field-command template of R100, for the integers `r0` and `r1` of the command's formula. -/
def fieldCommand (r0 r1 : Int) (s : State) : State :=
  if s.proto = .none then raise .notValidated s
  else setStatus .ok 0#3 false 0#8 (setResults r0 r1 s)

/-- How a validator ends (R82). -/
inductive Verdict where
  /-- Accept: the normalised bytes, the protocol code, the checksum. -/
  | accept (nb : Row) (proto : Proto) (csum : Byte)
  /-- Reject: the status code, the parity-failure mask, the checksum. -/
  | reject (code : StatusCode) (parfail : BitVec 3) (csum : Byte)
deriving DecidableEq, Repr

/-- The validator template of R82. -/
def conclude (v : Verdict) (s : State) : State :=
  match v with
  | .accept nb proto csum => setStatus .ok 0#3 false csum { s with nb := nb, proto := proto }
  | .reject code parfail csum => setStatus code parfail false csum { s with proto := .none }

/-- Write one entry of the baseline file (R30). An index that names no entry writes nothing. -/
def setRain (inst : Nat) (e : RainEntry) (s : State) : State := { s with rain := s.rain.set inst e }

end Sys2Proof.Machine
end

