-- ==== Sys2Proof/Machine/Control.lean ====
section
/-! DEFINITION. The one control command (43_control.md). -/

namespace Sys2Proof.Machine

/-- NOP (R140): no effect; STATUS keeps the value the previous command left. -/
def execNop (s : State) : Result := .next s

end Sys2Proof.Machine
end

