-- ==== Sys2Proof/Machine/Fields.lean ====
section
/-! DEFINITION. The message-type command and the eight field commands (41_field_decode.md). They read
only NB, never FRAME (R100). -/

namespace Sys2Proof.Machine

/-- MTYPE5 (R101). UNKNOWN_SUBTYPE still writes the results and keeps PROTO. -/
def execMtype5 (s : State) : Result :=
  if s.proto = .none then .next (raise .notValidated s)
  else if s.proto ≠ .fiveInOne then .next (raise .wrongKind s)
  else
    let m := messageType s.nb.b2
    let code := if m = 1 ∨ m = 8 then StatusCode.ok else .unknownSubtype
    .next (setStatus code 0#3 false 0#8 (setResults m 0 s))

/-- TEMP5 (R102): tenths of °F, and the raw field. -/
def execTemp5 (ia ib : ByteIndex) (s : State) : Result :=
  let raw : Int := temp5Raw (s.nb.get ia) (s.nb.get ib)
  .next (fieldCommand (raw - 400) raw s)

/-- TEMPTH (R103): tenths of °C, and the raw field. -/
def execTempth (ia ib : ByteIndex) (s : State) : Result :=
  let raw12 := tempthRaw (s.nb.get ia) (s.nb.get ib)
  .next (fieldCommand (sext 12 raw12) raw12 s)

/-- TEMP592 (R105): tenths of °C, and fiftieths of °F. -/
def execTemp592 (ia ib : ByteIndex) (s : State) : Result :=
  let r0 : Int := temp592Raw (s.nb.get ia) (s.nb.get ib) - 1000
  .next (fieldCommand r0 (9 * r0 + 1600) s)

/-- WSPD (R107): uncalibrated raw units. -/
def execWspd (ia ib : ByteIndex) (s : State) : Result :=
  .next (fieldCommand (windSpeed (s.nb.get ia) (s.nb.get ib)) 0 s)

/-- WDIR (R108): tenths of a degree, and the table index. -/
def execWdir (ia : ByteIndex) (s : State) : Result :=
  let k := compassIndex (s.nb.get ia)
  .next (fieldCommand (dirTenths k) k s)

/-- HUM (R109): percent. -/
def execHum (ia : ByteIndex) (s : State) : Result :=
  .next (fieldCommand (humidity (s.nb.get ia)) 0 s)

/-- RAIN14 (R110): the raw counter; the baseline file is not touched. -/
def execRain14 (ia ib : ByteIndex) (s : State) : Result :=
  .next (fieldCommand (rainCounter (s.nb.get ia) (s.nb.get ib)) 0 s)

/-- RGTOTAL (R111): bucket tips of 0.5 mm. -/
def execRgtotal (ia ib : ByteIndex) (s : State) : Result :=
  .next (fieldCommand (bucketTotal (s.nb.get ia) (s.nb.get ib)) 0 s)

end Sys2Proof.Machine
end

