-- ==== Sys2Proof/Machine/Rain.lean ====
section
/-! DEFINITION. The two commands of the baseline register file (42_rain_baseline.md). An INST that names
no entry is ILLEGAL_COMMAND, which decode reports first (R64, R154; notes/assumptions/7.md). -/

namespace Sys2Proof.Machine

/-- The delta of R131 and R132: `(raw - BVAL) mod 2^14`. -/
def rainDelta (raw : Nat) (bval : BitVec 14) : Int := ((raw : Int) - bval.toNat) % 2 ^ 14

/-- What RDELTA does with a validated type-1 frame of counter `raw` and the entry `e` (R131). -/
def measureRain (inst raw : Nat) (e : RainEntry) (s : State) : State :=
  if e.bv = false then
    setStatus .ok 0#3 true 0#8 (setResults 0 raw (setRain inst ⟨true, BitVec.ofNat 14 raw⟩ s))
  else setStatus .ok 0#3 false 0#8 (setResults (rainDelta raw e.bval) raw s)

/-- RDELTA (R131). -/
def execRdelta (ia ib : ByteIndex) (inst : InstIndex) (s : State) : Result :=
  match s.rain[inst.val]? with
  | none => .next (raise .illegalCommand s)
  | some e =>
    if s.proto = .none then .next (raise .notValidated s)
    else if s.proto ≠ .fiveInOne then .next (raise .wrongKind s)
    else if messageType s.nb.b2 ≠ 1 then .next (raise .wrongKind s)
    else .next (measureRain inst (rainCounter (s.nb.get ia) (s.nb.get ib)) e s)

/-- RCLR (R134). -/
def execRclr (inst : InstIndex) (s : State) : Result :=
  match s.rain[inst.val]? with
  | none => .next (raise .illegalCommand s)
  | some _ => .next (setStatus .ok 0#3 false 0#8 (setRain inst RainEntry.clear s))

end Sys2Proof.Machine
end

