-- ==== Sys2Proof/Machine/Validators.lean ====
section
/-! DEFINITION. The four validators (40_validators.md). Each verdict is a pure function of FRAME, plus
BITLEN for VAL592 (R82), with the checks in the order of R96. -/

namespace Sys2Proof.Machine

/-- The 5-in-1 normalisation of R83: complement bytes 0..7, then OR byte 8 into byte 0. -/
def norm5 (f : Row) : Row where
  b0 := ~~~f.b0 ||| f.b8
  b1 := ~~~f.b1
  b2 := ~~~f.b2
  b3 := ~~~f.b3
  b4 := ~~~f.b4
  b5 := ~~~f.b5
  b6 := ~~~f.b6
  b7 := ~~~f.b7
  b8 := f.b8

/-- The verdict of R84. -/
def judge5 (f : Row) : Verdict :=
  if f.b0 = 0#8 then .reject .structuralMismatch 0#3 0#8
  else if sum8 (norm5 f) 0 6 = (norm5 f).b7 then
    .accept (norm5 f) .fiveInOne (sum8 (norm5 f) 0 6)
  else .reject .checksumMismatch 0#3 (sum8 (norm5 f) 0 6)

/-- The verdict of R87. -/
def judgeRg (f : Row) : Verdict :=
  if f.b0 ≠ 0#8 ∧ f.b1 ≠ 0#8 ∧ f.b2 ≠ 0#8 ∧ f.b3 = 0#8 ∧ f.b4 = 0#8 then .accept f .rainGauge 0#8
  else .reject .structuralMismatch 0#3 0#8

/-- The verdict of R89. -/
def judgeTh (f : Row) : Verdict :=
  if f.b5 ≠ 0#8 then .reject .structuralMismatch 0#3 0#8
  else if sum8 f 0 3 = 0#8 then .reject .checksumMismatch 0#3 (sum8 f 0 3)
  else if sum8 f 0 3 ≠ f.b4 then .reject .checksumMismatch 0#3 (sum8 f 0 3)
  else .accept f .basicTh (sum8 f 0 3)

/-- The verdict of R92. -/
def judge592 (sense : ParitySense) (bitlen : BitVec 16) (f : Row) : Verdict :=
  if bitlen = 0#16 then .reject .skippedBitlen 0#3 0#8
  else if f.b0 = 0#8 ∨ f.b7 ≠ 0#8 then .reject .structuralMismatch 0#3 0#8
  else if sum8 f 0 5 ≠ f.b6 then
    .reject .checksumMismatch (parityFailures sense f.b3 f.b4 f.b5) (sum8 f 0 5)
  else if parityFailures sense f.b3 f.b4 f.b5 ≠ 0#3 then
    .reject .parityMismatch (parityFailures sense f.b3 f.b4 f.b5) (sum8 f 0 5)
  else .accept f .parity592 (sum8 f 0 5)

/-- VAL5 (R84). -/
def execVal5 (s : State) : Result := .next (conclude (judge5 s.frame) s)

/-- VALRG (R87). -/
def execValrg (s : State) : Result := .next (conclude (judgeRg s.frame) s)

/-- VALTH (R89). -/
def execValth (s : State) : Result := .next (conclude (judgeTh s.frame) s)

/-- VAL592 (R92). -/
def execVal592 (s : State) : Result :=
  .next (conclude (judge592 s.paritySense s.bitlen s.frame) s)

end Sys2Proof.Machine
end

