-- ==== Sys2Proof/Machine/Dispatch.lean ====
section
/-! DEFINITION. One arm per command. -/

namespace Sys2Proof.Machine

def exec (i : Instr) (s : State) : Host.Outcome State Fault Refusal :=
  match i with
  | .nop => Sys2Proof.Machine.execNop s
  | .val5 => Sys2Proof.Machine.execVal5 s
  | .valrg => Sys2Proof.Machine.execValrg s
  | .valth => Sys2Proof.Machine.execValth s
  | .val592 => Sys2Proof.Machine.execVal592 s
  | .mtype5 => Sys2Proof.Machine.execMtype5 s
  | .temp5 ia ib => Sys2Proof.Machine.execTemp5 ia ib s
  | .tempth ia ib => Sys2Proof.Machine.execTempth ia ib s
  | .temp592 ia ib => Sys2Proof.Machine.execTemp592 ia ib s
  | .wspd ia ib => Sys2Proof.Machine.execWspd ia ib s
  | .wdir ia => Sys2Proof.Machine.execWdir ia s
  | .hum ia => Sys2Proof.Machine.execHum ia s
  | .rain14 ia ib => Sys2Proof.Machine.execRain14 ia ib s
  | .rgtotal ia ib => Sys2Proof.Machine.execRgtotal ia ib s
  | .rdelta ia ib inst => Sys2Proof.Machine.execRdelta ia ib inst s
  | .rclr inst => Sys2Proof.Machine.execRclr inst s

end Sys2Proof.Machine
end

