-- ==== Sys2Proof/Machine/HostPort.lean ====
section
/-! DEFINITION. The host register space (20_memory.md): the register map of R42, `HostRead`, `HostWrite`
and the execution of a command inside a write to CMD (R50). -/

namespace Sys2Proof.Machine

/-- What an address of the register space names (R42). -/
inductive RegName where
  | cmd
  | status
  | result0
  | result1
  | bitlen
  | frame (i : ByteIndex)
  | nb (i : ByteIndex)
  | rbase (i : InstIndex)
  | reserved
deriving DecidableEq, Repr

/-- The register map of R42: which register each of the 256 addresses names. -/
def regAt (a : RegAddr) : RegName :=
  if a = 0x00#8 then .cmd
  else if a = 0x01#8 then .status
  else if a = 0x02#8 then .result0
  else if a = 0x03#8 then .result1
  else if a = 0x04#8 then .bitlen
  else if h : 0x10 ≤ a.toNat ∧ a.toNat < 0x19 then .frame ⟨a.toNat - 0x10, by omega⟩
  else if h : 0x20 ≤ a.toNat ∧ a.toNat < 0x29 then .nb ⟨a.toNat - 0x20, by omega⟩
  else if h : 0x30 ≤ a.toNat ∧ a.toNat < 0x40 then .rbase ⟨a.toNat - 0x30, by omega⟩
  else .reserved

/-- The word RBASE[i] reads as (R48); an `i` that names no entry reads 0. -/
def rbaseWord (e : Option RainEntry) : Word :=
  match e with
  | none => 0#32
  | some e => 0#15 ++ BitVec.ofBool e.bv ++ 0#2 ++ e.bval

/-- The word a register reads as (R42). -/
def readReg (s : State) : RegName → Word
  | .cmd => s.cmd
  | .status => statusWord s
  | .result0 => s.result0
  | .result1 => s.result1
  | .bitlen => s.bitlen.setWidth 32
  | .frame i => (s.frame.get i).setWidth 32
  | .nb i => (s.nb.get i).setWidth 32
  | .rbase i => rbaseWord s.rain[i.val]?
  | .reserved => 0#32

/-- `HostRead(a)` (R41, R42). A read has no side effect (R53). -/
def hostRead (a : RegAddr) (s : State) : Word := readReg s (regAt a)

/-- A host write to FRAME[i] (R44, R45). -/
def writeFrame (i : ByteIndex) (v : Word) (s : State) : State :=
  { s with frame := s.frame.set i (v.setWidth 8), proto := .none }

/-- A host write to BITLEN (R47, R45). -/
def writeBitlen (v : Word) (s : State) : State := { s with bitlen := v.setWidth 16, proto := .none }

/-- A host write to CMD (R50): CMD <- v, then the command v, or ILLEGAL_COMMAND (R64, R153). -/
def writeCmd (v : Word) (s : State) : Result :=
  match decode s.numRainInst v with
  | .ok i => exec i { s with cmd := v }
  | .error _ => .next (raise .illegalCommand { s with cmd := v })

/-- `HostWrite(a, v)` (R41, R42): CMD executes, FRAME and BITLEN store, every other address ignores the
write (R43, R46). -/
def hostWrite (a : RegAddr) (v : Word) (s : State) : Result :=
  match regAt a with
  | .cmd => writeCmd v s
  | .status => .next s
  | .result0 => .next s
  | .result1 => .next s
  | .bitlen => .next (writeBitlen v s)
  | .frame i => .next (writeFrame i v s)
  | .nb _ => .next s
  | .rbase _ => .next s
  | .reserved => .next s

/-- Perform one event, already taken off `pending`: a read returns its word, a write returns none, a reset
puts every element at its reset value and keeps the parameters (R170). -/
def perform (e : HostEvent) (s : State) : Result :=
  match e with
  | .read a => .next { s with readData := some (hostRead a s) }
  | .write a v => hostWrite a v { s with readData := none }
  | .reset => .next (State.powerOn s.paritySense s.numRainInst s.pending)

end Sys2Proof.Machine
end

