-- ==== Sys2Proof/Machine/Step.lean ====
section
/-! DEFINITION. One step is one host access (R179): take the oldest pending event and perform it. With
nothing pending the block waits; it never starts an access of its own (R41). -/

namespace Sys2Proof.Machine

/-- One step of the block. -/
def step (s : State) : Host.Outcome State Fault Refusal :=
  match s.pending with
  | [] => .next s
  | e :: rest => perform e { s with pending := rest }

/-- `s` with a write of the command word `w` (its low `nbits` bits) to CMD as the oldest pending access:
what the host does to have a command run next (R50; notes/assumptions/5.md). -/
def State.withFetchWord (s : State) (nbits w : Nat) : State :=
  { s with pending := .write 0x00#8 (BitVec.ofNat 32 (w % 2 ^ nbits)) :: s.pending }

end Sys2Proof.Machine
end

