-- ==== Sys2Proof/Machine/HostProgram.lean ====
section
/-! DEFINITION. Host programs (R75) and their pseudo-instructions (R76). A line has no meaning of its own:
it is exactly the accesses it expands to. -/

namespace Sys2Proof.Machine

/-- One line of a host program. -/
inductive HostLine where
  /-- `WR addr, value`. -/
  | wr (a : RegAddr) (v : Word)
  /-- `RD addr`. -/
  | rd (a : RegAddr)
  /-- A command line. -/
  | cmd (i : Instr)
  /-- `LDROW b0, …, b8`. -/
  | ldrow (r : Row)
  /-- `SETBL n`. -/
  | setbl (n : Word)
  /-- `GETST`. -/
  | getst
  /-- `GETR0`. -/
  | getr0
  /-- `GETR1`. -/
  | getr1
  /-- `CK5`: VAL5 then MTYPE5. -/
  | ck5
deriving DecidableEq, Repr

/-- The accesses of a line (R75, R76). -/
def HostLine.expand : HostLine → List HostEvent
  | .wr a v => [.write a v]
  | .rd a => [.read a]
  | .cmd i => [.write 0x00#8 (encode i)]
  | .ldrow r =>
    [ .write 0x10#8 (r.b0.setWidth 32), .write 0x11#8 (r.b1.setWidth 32), .write 0x12#8 (r.b2.setWidth 32),
      .write 0x13#8 (r.b3.setWidth 32), .write 0x14#8 (r.b4.setWidth 32), .write 0x15#8 (r.b5.setWidth 32),
      .write 0x16#8 (r.b6.setWidth 32), .write 0x17#8 (r.b7.setWidth 32), .write 0x18#8 (r.b8.setWidth 32) ]
  | .setbl n => [.write 0x04#8 n]
  | .getst => [.read 0x01#8]
  | .getr0 => [.read 0x02#8]
  | .getr1 => [.read 0x03#8]
  | .ck5 => [.write 0x00#8 (encode .val5), .write 0x00#8 (encode .mtype5)]

/-- The accesses of a program, in its order. -/
def programEvents (p : List HostLine) : List HostEvent := p.flatMap HostLine.expand

/-- The state in which the host has issued a program after what it had issued before. -/
def State.issue (p : List HostLine) (s : State) : State :=
  { s with pending := s.pending ++ programEvents p }

/-- The text of a command (R70): mnemonic, then the operands as decimal numbers. -/
def renderCommand (i : Instr) : String :=
  let operands : List Nat :=
    match i with
    | .nop => []
    | .val5 => []
    | .valrg => []
    | .valth => []
    | .val592 => []
    | .mtype5 => []
    | .temp5 ia ib => [ia, ib]
    | .tempth ia ib => [ia, ib]
    | .temp592 ia ib => [ia, ib]
    | .wspd ia ib => [ia, ib]
    | .wdir ia => [ia]
    | .hum ia => [ia]
    | .rain14 ia ib => [ia, ib]
    | .rgtotal ia ib => [ia, ib]
    | .rdelta ia ib inst => [ia, ib, inst]
    | .rclr inst => [inst]
  match operands with
  | [] => i.mnemonic
  | _ => i.mnemonic ++ " " ++ ", ".intercalate (operands.map toString)

end Sys2Proof.Machine
end

