-- ==== Sys2Proof/Safety.lean ====
section
/-! DEFINITION. The terms of the claims: the invariants that every step keeps, and runs of several
accesses. -/

namespace Sys2Proof.Machine

/-- R31, with the tie to the row in FRAME that R45 makes: NB holds what the validator that set PROTO
writes for the row now in FRAME (and the BITLEN now set), and that row meets the validator's conditions
(R84, R87, R89, R92). -/
def State.HoldsAcceptedFrame (s : State) : Prop :=
  match s.proto with
  | .none => True
  | .fiveInOne => s.frame.b0 ≠ 0#8 ∧ s.nb = norm5 s.frame ∧ sum8 s.nb 0 6 = s.nb.b7
  | .rainGauge =>
    s.nb = s.frame ∧ s.nb.b0 ≠ 0#8 ∧ s.nb.b1 ≠ 0#8 ∧ s.nb.b2 ≠ 0#8 ∧ s.nb.b3 = 0#8 ∧ s.nb.b4 = 0#8
  | .basicTh => s.nb = s.frame ∧ s.nb.b5 = 0#8 ∧ sum8 s.nb 0 3 = s.nb.b4 ∧ s.nb.b4 ≠ 0#8
  | .parity592 =>
    s.nb = s.frame ∧ s.bitlen ≠ 0#16 ∧ s.nb.b0 ≠ 0#8 ∧ s.nb.b7 = 0#8 ∧ sum8 s.nb 0 5 = s.nb.b6 ∧
      parOk s.paritySense s.nb.b3 = true ∧ parOk s.paritySense s.nb.b4 = true ∧
      parOk s.paritySense s.nb.b5 = true

/-- The status fields fit the code they stand with (R94, R131, R151), and the codes that leave no
validated frame stand only with PROTO = NONE (R100, R152). -/
structure State.StatusFits (s : State) : Prop where
  parfail_code : s.parfail ≠ 0#3 → s.code = .checksumMismatch ∨ s.code = .parityMismatch
  parity_parfail : s.code = .parityMismatch → s.parfail ≠ 0#3
  blset_ok : s.blset = true → s.code = .ok
  csum_code : s.csum ≠ 0#8 → s.code = .ok ∨ s.code = .checksumMismatch ∨ s.code = .parityMismatch
  rejected_none : s.code = .checksumMismatch ∨ s.code = .parityMismatch ∨ s.code = .structuralMismatch ∨
    s.code = .skippedBitlen ∨ s.code = .notValidated → s.proto = .none

/-- The baseline file has 1 to 16 entries (R7), and an entry that is not set holds 0 (R33, R134). -/
structure State.RainFileFits (s : State) : Prop where
  nonempty : 1 ≤ s.rain.length
  at_most : s.rain.length ≤ Config.numRainInstMax
  unset_zero : ∀ e ∈ s.rain, e.bv = false → e.bval = 0#14

/-- R64's conditions on a word, in the numbers of its fields: what the block accepts as a command. Written
apart from the decoder, so that the two can be held against each other. -/
def legalWord (numInst : Nat) (w : Word) : Bool :=
  let opc := w.toNat % 2 ^ 8
  let ia := w.toNat / 2 ^ 8 % 2 ^ 4
  let ib := w.toNat / 2 ^ 12 % 2 ^ 4
  let inst := w.toNat / 2 ^ 16 % 2 ^ 4
  let res := w.toNat / 2 ^ 20
  decide (w = 0#32) ||
    (decide (res = 0) &&
      (decide (opc ∈ [0x01, 0x02, 0x03, 0x04, 0x10] ∧ ia = 0 ∧ ib = 0 ∧ inst = 0) ||
       decide (opc ∈ [0x15, 0x16] ∧ ia ≤ 8 ∧ ib = 0 ∧ inst = 0) ||
       decide (opc ∈ [0x11, 0x12, 0x13, 0x14, 0x17, 0x18] ∧ ia ≤ 8 ∧ ib ≤ 8 ∧ inst = 0) ||
       decide (opc = 0x20 ∧ ia ≤ 8 ∧ ib ≤ 8 ∧ inst < numInst) ||
       decide (opc = 0x21 ∧ ia = 0 ∧ ib = 0 ∧ inst < numInst)))

/-- The four validators (R63). -/
def isValidator : Instr → Bool
  | .val5 | .valrg | .valth | .val592 => true
  | .nop | .mtype5 | .temp5 _ _ | .tempth _ _ | .temp592 _ _ | .wspd _ _ | .wdir _ | .hum _
  | .rain14 _ _ | .rgtotal _ _ | .rdelta _ _ _ | .rclr _ => false

/-- The field commands of R100, which read NB through their operands. -/
def isFieldCommand : Instr → Bool
  | .temp5 _ _ | .tempth _ _ | .temp592 _ _ | .wspd _ _ | .wdir _ | .hum _ | .rain14 _ _
  | .rgtotal _ _ => true
  | .nop | .val5 | .valrg | .valth | .val592 | .mtype5 | .rdelta _ _ _ | .rclr _ => false

/-- `s` performs `k` events and is then `t`. -/
def Runs : Nat → State → State → Prop
  | 0, s, t => s = t
  | k + 1, s, t => ∃ u, step s = .next u ∧ Runs k u t

end Sys2Proof.Machine
end

