-- ==== Sys2Proof/Certificates/Slice0/Obligations.lean ====
section
/-! DEFINITION. The statements for the provers. A statement of what a command does names the whole next
state, so that it says what the command leaves unchanged as well. Fields of bytes are written as numbers
(remainders and multiples of powers of two), apart from the masks and shifts the model transcribes. -/

open Sys2Proof Sys2Proof.Machine

/-! ### Encoding -/

/-- Every well-formed command survives encoding, with every operand at every value (R64, R67). -/
def Obligations.DecodeInvertsEncode : Prop :=
  ∀ (n : Nat) (i : Instr), i.wellFormed n = true → decode n (encode i) = .ok i

/-- Every accepted word is the one encoding of the command it decodes to (R64, R67). -/
def Obligations.EncodeInvertsDecode : Prop :=
  ∀ (n : Nat) (w : Word) (i : Instr), decode n w = .ok i → encode i = w ∧ i.wellFormed n = true

/-- The decoder accepts exactly the words that meet R64's requirements. -/
def Obligations.DecodeAcceptsExactlyLegalWords : Prop :=
  ∀ (n : Nat) (w : Word), (∃ i, decode n w = .ok i) ↔ legalWord n w = true

/-- Words of R67 and V-ENC decode to the commands they stand for. -/
def Obligations.WrittenOutWordsDecode : Prop :=
  decode 1 0x00000000#32 = .ok .nop ∧
  decode 1 0x00000001#32 = .ok .val5 ∧
  decode 1 0x00002112#32 = .ok (.tempth 1 2) ∧
  decode 1 0x00004314#32 = .ok (.wspd 3 4) ∧
  decode 1 0x00000415#32 = .ok (.wdir 4) ∧
  decode 1 0x00006520#32 = .ok (.rdelta 5 6 0) ∧
  decode 4 0x00030021#32 = .ok (.rclr 3) ∧
  decode 1 0x00009814#32 = .error .byteIndex ∧
  decode 1 0x00016520#32 = .error .rainInstance

/-- The pattern table of R66 against the decoder: a command's word matches its own row and no other, and a
word that matches a row within R64's value limits is that command. -/
def Obligations.PatternTableNamesDecodedCommand : Prop :=
  ∀ (n : Nat) (w : Word),
    (∀ i, decode n w = .ok i → ∀ row ∈ patternTable, (w &&& row.2.2 = row.2.1 ↔ row.1 = i.mnemonic)) ∧
    (∀ row ∈ patternTable, w &&& row.2.2 = row.2.1 →
      w.toNat / 2 ^ 8 % 16 ≤ 8 → w.toNat / 2 ^ 12 % 16 ≤ 8 → w.toNat / 2 ^ 16 % 16 < n →
      ∃ i, decode n w = .ok i ∧ i.mnemonic = row.1)

/-! ### The step and the register map -/

/-- A host write of a legal word to CMD stores the word and runs the decoded command (R50). -/
def Obligations.StepRunsDecodedCommand : Prop :=
  ∀ (s : State) (v : Word) (rest : List HostEvent) (i : Instr),
    s.pending = .write 0x00#8 v :: rest → decode s.numRainInst v = .ok i →
      step s = exec i { s with pending := rest, readData := none, cmd := v }

/-- A command placed by its encoded word is the one the next step runs (R50, R67). -/
def Obligations.PlacedCommandRunsNext : Prop :=
  ∀ (s : State) (i : Instr), i.wellFormed s.numRainInst = true →
    step (s.withFetchWord 32 (encode i).toNat) = exec i { s with readData := none, cmd := encode i }

/-- An illegal word is stored in CMD, sets ILLEGAL_COMMAND and changes nothing else (R65, R153). -/
def Obligations.IllegalWordSetsStatusOnly : Prop :=
  ∀ (s : State) (v : Word) (rest : List HostEvent),
    s.pending = .write 0x00#8 v :: rest → legalWord s.numRainInst v = false →
      step s = .next { s with
        pending := rest, readData := none, cmd := v,
        code := .illegalCommand, parfail := 0#3, blset := false, csum := 0#8 }

/-- With no access pending the block waits: it never starts an access of its own (R41). The wait as a
step is the model's choice (notes/assumptions/1.md). -/
def Obligations.IdleBlockWaits : Prop :=
  ∀ s : State, s.pending = [] → step s = .next s

/-- A host read at any of the 256 addresses returns the word of the register map and changes nothing else
(R42, R48, R49). -/
def Obligations.ReadServesRegisterMap : Prop :=
  ∀ (s : State) (a : RegAddr) (rest : List HostEvent), s.pending = .read a :: rest →
    ∃ v : Word, step s = .next { s with pending := rest, readData := some v } ∧
      (a.toNat = 0x00 → v = s.cmd) ∧
      (a.toNat = 0x01 → v = statusWord s) ∧
      (a.toNat = 0x02 → v = s.result0) ∧
      (a.toNat = 0x03 → v = s.result1) ∧
      (a.toNat = 0x04 → v.toNat = s.bitlen.toNat) ∧
      (∀ i : ByteIndex, a.toNat = 0x10 + i.val → v.toNat = (s.frame.get i).toNat) ∧
      (∀ i : ByteIndex, a.toNat = 0x20 + i.val → v.toNat = (s.nb.get i).toNat) ∧
      (∀ i : InstIndex, a.toNat = 0x30 + i.val →
        (∀ e, s.rain[i.val]? = some e → v.toNat = e.bval.toNat + e.bv.toNat * 2 ^ 16) ∧
        (s.numRainInst ≤ i.val → v.toNat = 0)) ∧
      (0x05 ≤ a.toNat ∧ a.toNat ≤ 0x0F ∨ 0x19 ≤ a.toNat ∧ a.toNat ≤ 0x1F ∨
        0x29 ≤ a.toNat ∧ a.toNat ≤ 0x2F ∨ 0x40 ≤ a.toNat → v.toNat = 0)

/-- The word STATUS reads as, field by field, with the values of R24 and R151 (R25). -/
def Obligations.StatusWordLayout : Prop :=
  ∀ s : State,
    let code := match s.code with
      | .ok => 0 | .checksumMismatch => 1 | .parityMismatch => 2 | .structuralMismatch => 3
      | .unknownSubtype => 4 | .notValidated => 5 | .illegalCommand => 6 | .wrongKind => 7
      | .skippedBitlen => 8
    let proto := match s.proto with
      | .none => 0 | .fiveInOne => 1 | .rainGauge => 2 | .basicTh => 3 | .parity592 => 4
    let valid := if s.proto = .none then 0 else 1
    (statusWord s).toNat = code + s.parfail.toNat * 2 ^ 4 + s.blset.toNat * 2 ^ 7 + valid * 2 ^ 8 +
      proto * 2 ^ 9 + s.csum.toNat * 2 ^ 16

/-- A host write to any address but CMD: FRAME[i] and BITLEN store their low bits and clear PROTO, even for
the value already there; every other register ignores the write (R45, R46). -/
def Obligations.WriteServesRegisterMap : Prop :=
  ∀ (s : State) (a : RegAddr) (v : Word) (rest : List HostEvent), s.pending = .write a v :: rest →
    (∀ i : ByteIndex, a.toNat = 0x10 + i.val →
      step s = .next { s with
        pending := rest, readData := none, frame := s.frame.set i (BitVec.ofNat 8 v.toNat), proto := .none }) ∧
    (a.toNat = 0x04 →
      step s = .next { s with
        pending := rest, readData := none, bitlen := BitVec.ofNat 16 v.toNat, proto := .none }) ∧
    (1 ≤ a.toNat ∧ a.toNat ≤ 3 ∨ 0x20 ≤ a.toNat ∧ a.toNat ≤ 0x28 ∨ 0x30 ≤ a.toNat ∧ a.toNat ≤ 0x3F →
      step s = .next { s with pending := rest, readData := none })

/-- A reserved address reads 0 and a write to it changes no state (R43). -/
def Obligations.ReservedAddressReadsZeroAndIgnoresWrites : Prop :=
  ∀ (s : State) (a : RegAddr) (v : Word) (rest : List HostEvent),
    0x05 ≤ a.toNat ∧ a.toNat ≤ 0x0F ∨ 0x19 ≤ a.toNat ∧ a.toNat ≤ 0x1F ∨
      0x29 ≤ a.toNat ∧ a.toNat ≤ 0x2F ∨ 0x40 ≤ a.toNat →
    (s.pending = .read a :: rest → step s = .next { s with pending := rest, readData := some 0#32 }) ∧
    (s.pending = .write a v :: rest → step s = .next { s with pending := rest, readData := none })

/-- FRAME[i] and BITLEN read back the low bits of what was written, and the other bytes of FRAME keep
their values (R44, R47). -/
def Obligations.FrameAndBitlenReadBackLowBits : Prop :=
  ∀ (s : State) (v : Word) (rest : List HostEvent),
    (∀ (a : RegAddr) (i : ByteIndex), a.toNat = 0x10 + i.val →
      s.pending = .write a v :: .read a :: rest →
      ∃ t, Runs 2 s t ∧ t.pending = rest ∧ t.readData = some (BitVec.ofNat 32 (v.toNat % 2 ^ 8)) ∧
        (t.frame.get i).toNat = v.toNat % 2 ^ 8 ∧ ∀ j, j ≠ i → t.frame.get j = s.frame.get j) ∧
    (s.pending = .write 0x04#8 v :: .read 0x04#8 :: rest →
      ∃ t, Runs 2 s t ∧ t.pending = rest ∧ t.readData = some (BitVec.ofNat 32 (v.toNat % 2 ^ 16)) ∧
        t.bitlen.toNat = v.toNat % 2 ^ 16)

/-- LDROW loads the nine bytes in row order and leaves no validated frame; SETBL loads BITLEN (R76). -/
def Obligations.LdrowLoadsRowAndSetblLoadsBitlen : Prop :=
  ∀ (s : State) (r : Row) (n : Word) (rest : List HostEvent),
    (s.pending = (HostLine.ldrow r).expand ++ rest →
      Runs 9 s { s with pending := rest, readData := none, frame := r, proto := .none }) ∧
    (s.pending = (HostLine.setbl n).expand ++ rest →
      Runs 1 s { s with
        pending := rest, readData := none, bitlen := BitVec.ofNat 16 n.toNat, proto := .none })

/-- A row write between a validation and a decode makes the decode end with NOT_VALIDATED, results and
everything else kept (R175). -/
def Obligations.RowWriteInvalidatesDecode : Prop :=
  ∀ (s : State) (a : RegAddr) (v w : Word) (rest : List HostEvent) (i : Instr),
    a.toNat = 0x04 ∨ 0x10 ≤ a.toNat ∧ a.toNat ≤ 0x18 →
    s.pending = .write a v :: .write 0x00#8 w :: rest → decode s.numRainInst w = .ok i →
    isFieldCommand i = true ∨ i = .mtype5 ∨ (∃ ia ib inst, i = .rdelta ia ib inst) →
    ∃ t, Runs 2 s t ∧ t.code = .notValidated ∧ t.parfail = 0#3 ∧ t.blset = false ∧ t.csum = 0#8 ∧
      t.proto = .none ∧ t.nb = s.nb ∧ t.result0 = s.result0 ∧ t.result1 = s.result1 ∧ t.rain = s.rain

/-! ### Reset -/

/-- The state after reset: every element of R33 at its reset value, and every register reads 0, for every
value of the parameters. That State.reset has one baseline entry is R7's default of NUM_RAIN_INST as the model
chooses it for State.reset (notes/assumptions/3.md), not R33's. -/
def Obligations.ResetStateReadsZero : Prop :=
  (State.reset.frame = ⟨0#8, 0#8, 0#8, 0#8, 0#8, 0#8, 0#8, 0#8, 0#8⟩ ∧ State.reset.nb = State.reset.frame ∧
    State.reset.bitlen = 0#16 ∧ State.reset.proto = .none ∧ State.reset.code = .ok ∧
    State.reset.parfail = 0#3 ∧ State.reset.blset = false ∧ State.reset.csum = 0#8 ∧
    State.reset.result0 = 0#32 ∧ State.reset.result1 = 0#32 ∧ State.reset.cmd = 0#32 ∧
    State.reset.rain = [⟨false, 0#14⟩]) ∧
  ∀ (p : ParitySense) (n : Nat) (l : List HostEvent) (a : RegAddr), hostRead a (State.powerOn p n l) = 0#32

/-- Power-on reset, from any state: every element at its reset value, no command executed, the parameters
and the host's later accesses kept (R170; as an event in the queue, notes/assumptions/4.md). -/
def Obligations.ResetEventRestoresResetValues : Prop :=
  ∀ (s : State) (rest : List HostEvent), s.pending = .reset :: rest →
    step s = .next {
      frame := ⟨0#8, 0#8, 0#8, 0#8, 0#8, 0#8, 0#8, 0#8, 0#8⟩
      nb := ⟨0#8, 0#8, 0#8, 0#8, 0#8, 0#8, 0#8, 0#8, 0#8⟩
      bitlen := 0#16, proto := .none, code := .ok, parfail := 0#3, blset := false, csum := 0#8
      result0 := 0#32, result1 := 0#32, cmd := 0#32
      rain := List.replicate s.rain.length ⟨false, 0#14⟩
      paritySense := s.paritySense, pending := rest, readData := none }

/-! ### Invariants -/

/-- R31: whenever PROTO is not NONE, NB is what the validator that set it writes for the row in FRAME, and
the row meets that validator's conditions. Every step keeps it. The spec derives R31 from R22, R24 and R45. -/
def Obligations.StepKeepsAcceptedFrame : Prop :=
  ∀ s t : State, s.HoldsAcceptedFrame → step s = .next t → t.HoldsAcceptedFrame

/-- The status fields fit the code they stand with, and the codes that leave no validated frame stand only
with PROTO = NONE. Every step keeps it (R94, R131, R152). -/
def Obligations.StepKeepsStatusFits : Prop :=
  ∀ s t : State, s.StatusFits → step s = .next t → t.StatusFits

/-- The baseline file keeps its 1 to 16 entries, and an unset entry holds 0. Every step keeps it (R7, R30,
R134). -/
def Obligations.StepKeepsRainFileFits : Prop :=
  ∀ s t : State, s.RainFileFits → step s = .next t → t.RainFileFits

/-- The state after reset meets the three invariants. -/
def Obligations.ResetMeetsInvariants : Prop :=
  State.reset.HoldsAcceptedFrame ∧ State.reset.StatusFits ∧ State.reset.RainFileFits

/-! ### Rules about the whole machine -/

/-- Every step completes: no command and no access traps, hangs or is refused (R150). -/
def Obligations.EveryStepCompletes : Prop :=
  ∀ s : State, ∃ t, step s = .next t

/-- No command writes FRAME, BITLEN or CMD, and none changes the parameters or the host's side (R21, R23,
R29, R34). -/
def Obligations.CommandsKeepHostRegistersAndParameters : Prop :=
  ∀ (i : Instr) (s t : State), exec i s = .next t →
    t.frame = s.frame ∧ t.bitlen = s.bitlen ∧ t.cmd = s.cmd ∧ t.paritySense = s.paritySense ∧
      t.rain.length = s.rain.length ∧ t.pending = s.pending ∧ t.readData = s.readData

/-- FRAME changes in a step only by a host write to a FRAME address, and then only in that byte, or by
reset (R21). -/
def Obligations.FrameWrittenOnlyByHost : Prop :=
  ∀ s t : State, step s = .next t →
    t.frame = s.frame ∨ (∃ rest, s.pending = .reset :: rest) ∨
      ∃ (a : RegAddr) (v : Word) (rest : List HostEvent) (i : ByteIndex),
        s.pending = .write a v :: rest ∧ a.toNat = 0x10 + i.val ∧
          (t.frame.get i).toNat = v.toNat % 2 ^ 8 ∧ ∀ j, j ≠ i → t.frame.get j = s.frame.get j

/-- NB changes in a step only when a validator accepts, or by reset (R22). -/
def Obligations.NbWrittenOnlyOnAcceptance : Prop :=
  ∀ s t : State, step s = .next t →
    t.nb = s.nb ∨ (∃ rest, s.pending = .reset :: rest) ∨
      ∃ v rest i, s.pending = .write 0x00#8 v :: rest ∧ decode s.numRainInst v = .ok i ∧
        isValidator i = true ∧ t.code = .ok ∧ t.proto ≠ .none ∧
        t.nb = (if i = .val5 then norm5 s.frame else s.frame)

/-- PROTO changes in a step only by a validator, a write to FRAME or BITLEN, or reset, and only a validator
leaves it other than NONE (R24). -/
def Obligations.ProtoWrittenOnlyByNamedWriters : Prop :=
  ∀ s t : State, step s = .next t →
    t.proto = s.proto ∨ (t.proto = .none ∧ ∃ rest, s.pending = .reset :: rest) ∨
      (t.proto = .none ∧ ∃ (a : RegAddr) (v : Word) (rest : List HostEvent),
        s.pending = .write a v :: rest ∧ (a.toNat = 0x04 ∨ 0x10 ≤ a.toNat ∧ a.toNat ≤ 0x18)) ∨
      ∃ v rest i, s.pending = .write 0x00#8 v :: rest ∧ decode s.numRainInst v = .ok i ∧
        ((i = .val5 ∧ (t.proto = .fiveInOne ∨ t.proto = .none)) ∨
         (i = .valrg ∧ (t.proto = .rainGauge ∨ t.proto = .none)) ∨
         (i = .valth ∧ (t.proto = .basicTh ∨ t.proto = .none)) ∨
         (i = .val592 ∧ (t.proto = .parity592 ∨ t.proto = .none)))

/-- A baseline once set stays in its entry, through every step, until RCLR of that entry or reset (R133,
R172). -/
def Obligations.SetBaselineStaysUntilClearedOrReset : Prop :=
  ∀ (s t : State) (k : InstIndex) (e : RainEntry), step s = .next t →
    s.rain[k.val]? = some e → e.bv = true →
    t.rain[k.val]? = some e ∨ (∃ rest, s.pending = .reset :: rest) ∨
      ∃ v rest, s.pending = .write 0x00#8 v :: rest ∧ decode s.numRainInst v = .ok (.rclr k)

/-- The results change only by a field command, MTYPE5 or RDELTA that ends with OK, or by MTYPE5 that ends
with UNKNOWN_SUBTYPE; validators, RCLR and NOP leave them (R28). -/
def Obligations.ResultsWrittenOnlyOnSuccess : Prop :=
  ∀ (i : Instr) (s t : State), exec i s = .next t →
    (t.result0 = s.result0 ∧ t.result1 = s.result1) ∨
    (t.code = .ok ∧ (isFieldCommand i = true ∨ i = .mtype5 ∨ ∃ ia ib inst, i = .rdelta ia ib inst)) ∨
    (t.code = .unknownSubtype ∧ i = .mtype5)

/-- Which command can leave which status field other than 0 (R26, R94, R131). -/
def Obligations.StatusFieldsZeroUnlessNamed : Prop :=
  ∀ (i : Instr) (s t : State), exec i s = .next t → i ≠ .nop →
    (i ≠ .val592 → t.parfail = 0#3) ∧
    ((∀ ia ib inst, i ≠ .rdelta ia ib inst) → t.blset = false) ∧
    (isValidator i = false → t.csum = 0#8)

/-- CMD holds the last word written to address 0x00, legal or not; no other access changes it but reset
(R29). -/
def Obligations.CmdHoldsLastWordWritten : Prop :=
  ∀ s t : State, step s = .next t →
    (∀ v rest, s.pending = .write 0x00#8 v :: rest → t.cmd = v) ∧
    ((∀ v rest, s.pending ≠ .write 0x00#8 v :: rest) → (∀ rest, s.pending ≠ .reset :: rest) → t.cmd = s.cmd) ∧
    (∀ rest, s.pending = .reset :: rest → t.cmd = 0#32)

/-! ### Control and validators -/

/-- NOP is the whole word 0 and has no effect but the write of CMD itself; every other word with OPC 0x00 is
ILLEGAL_COMMAND (R140). -/
def Obligations.NopChangesNothing : Prop :=
  encode .nop = 0#32 ∧ (∀ s : State, exec .nop s = .next s) ∧
    ∀ (s : State) (w : Word) (rest : List HostEvent),
      s.pending = .write 0x00#8 w :: rest → w.toNat % 256 = 0 →
      (w = 0#32 → step s = .next { s with pending := rest, readData := none, cmd := 0#32 }) ∧
      (w ≠ 0#32 → step s = .next { s with
        pending := rest, readData := none, cmd := w,
        code := .illegalCommand, parfail := 0#3, blset := false, csum := 0#8 })

/-- VAL5 on every FRAME (R83, R84). -/
def Obligations.Val5Result : Prop :=
  ∀ s : State,
    let f := s.frame
    let t : Row := ⟨~~~f.b0 ||| f.b8, ~~~f.b1, ~~~f.b2, ~~~f.b3, ~~~f.b4, ~~~f.b5, ~~~f.b6, ~~~f.b7, f.b8⟩
    let sum := (t.b0.toNat + t.b1.toNat + t.b2.toNat + t.b3.toNat + t.b4.toNat + t.b5.toNat + t.b6.toNat) % 256
    encode .val5 = 0x00000001#32 ∧
    (f.b0 = 0#8 → exec .val5 s = .next { s with
      proto := .none, code := .structuralMismatch, parfail := 0#3, blset := false, csum := 0#8 }) ∧
    (f.b0 ≠ 0#8 → sum = t.b7.toNat → exec .val5 s = .next { s with
      nb := t, proto := .fiveInOne, code := .ok, parfail := 0#3, blset := false, csum := BitVec.ofNat 8 sum }) ∧
    (f.b0 ≠ 0#8 → sum ≠ t.b7.toNat → exec .val5 s = .next { s with
      proto := .none, code := .checksumMismatch, parfail := 0#3, blset := false, csum := BitVec.ofNat 8 sum })

/-- VALRG on every FRAME (R87). -/
def Obligations.ValrgResult : Prop :=
  ∀ s : State,
    let f := s.frame
    let pattern := f.b0.toNat * f.b1.toNat * f.b2.toNat ≠ 0 ∧ f.b3.toNat + f.b4.toNat = 0
    encode .valrg = 0x00000002#32 ∧
    (pattern → exec .valrg s = .next { s with
      nb := f, proto := .rainGauge, code := .ok, parfail := 0#3, blset := false, csum := 0#8 }) ∧
    (¬ pattern → exec .valrg s = .next { s with
      proto := .none, code := .structuralMismatch, parfail := 0#3, blset := false, csum := 0#8 })

/-- VALTH on every FRAME (R89). -/
def Obligations.ValthResult : Prop :=
  ∀ s : State,
    let f := s.frame
    let sum := (f.b0.toNat + f.b1.toNat + f.b2.toNat + f.b3.toNat) % 256
    encode .valth = 0x00000003#32 ∧
    (f.b5 ≠ 0#8 → exec .valth s = .next { s with
      proto := .none, code := .structuralMismatch, parfail := 0#3, blset := false, csum := 0#8 }) ∧
    (f.b5 = 0#8 → sum = 0 ∨ sum ≠ f.b4.toNat → exec .valth s = .next { s with
      proto := .none, code := .checksumMismatch, parfail := 0#3, blset := false, csum := BitVec.ofNat 8 sum }) ∧
    (f.b5 = 0#8 → sum ≠ 0 → sum = f.b4.toNat → exec .valth s = .next { s with
      nb := f, proto := .basicTh, code := .ok, parfail := 0#3, blset := false, csum := f.b4 })

/-- VAL592 on every FRAME and BITLEN, under either PARITY_SENSE (R92, R94). -/
def Obligations.Val592Result : Prop :=
  ∀ s : State,
    let f := s.frame
    let sum := (f.b0.toNat + f.b1.toNat + f.b2.toNat + f.b3.toNat + f.b4.toNat + f.b5.toNat) % 256
    let bad := fun b : Byte => if parOk s.paritySense b then 0 else 1
    let pf := bad f.b3 + 2 * bad f.b4 + 4 * bad f.b5
    encode .val592 = 0x00000004#32 ∧
    (s.bitlen = 0#16 → exec .val592 s = .next { s with
      proto := .none, code := .skippedBitlen, parfail := 0#3, blset := false, csum := 0#8 }) ∧
    (s.bitlen ≠ 0#16 → f.b0 = 0#8 ∨ f.b7 ≠ 0#8 → exec .val592 s = .next { s with
      proto := .none, code := .structuralMismatch, parfail := 0#3, blset := false, csum := 0#8 }) ∧
    (s.bitlen ≠ 0#16 → f.b0 ≠ 0#8 → f.b7 = 0#8 → sum ≠ f.b6.toNat → exec .val592 s = .next { s with
      proto := .none, code := .checksumMismatch, parfail := BitVec.ofNat 3 pf, blset := false,
      csum := BitVec.ofNat 8 sum }) ∧
    (s.bitlen ≠ 0#16 → f.b0 ≠ 0#8 → f.b7 = 0#8 → sum = f.b6.toNat → pf ≠ 0 → exec .val592 s = .next { s with
      proto := .none, code := .parityMismatch, parfail := BitVec.ofNat 3 pf, blset := false,
      csum := BitVec.ofNat 8 sum }) ∧
    (s.bitlen ≠ 0#16 → f.b0 ≠ 0#8 → f.b7 = 0#8 → sum = f.b6.toNat → pf = 0 → exec .val592 s = .next { s with
      nb := f, proto := .parity592, code := .ok, parfail := 0#3, blset := false, csum := BitVec.ofNat 8 sum })

/-- The parity predicate under both values of PARITY_SENSE, as exclusive ors of bits, and that the second
inverts every verdict of the first (R81). -/
def Obligations.ParitySensesOpposeEachOther : Prop :=
  ∀ b : Byte,
    let odd7 := b.getLsbD 0 ^^ b.getLsbD 1 ^^ b.getLsbD 2 ^^ b.getLsbD 3 ^^ b.getLsbD 4 ^^ b.getLsbD 5 ^^
      b.getLsbD 6
    parOk .flagOddCount b = (odd7 == b.getLsbD 7) ∧ parOk .totalOdd b = (odd7 ^^ b.getLsbD 7) ∧
      parOk .totalOdd b = !parOk .flagOddCount b

/-- After a validator accepts, the integrity value recomputed from NB is the embedded one (R97, which the
spec derives from R84, R89 and R92). -/
def Obligations.AcceptedFrameRecomputes : Prop :=
  ∀ s t : State,
    (exec .val5 s = .next t → t.code = .ok →
      (t.nb.b0.toNat + t.nb.b1.toNat + t.nb.b2.toNat + t.nb.b3.toNat + t.nb.b4.toNat + t.nb.b5.toNat +
        t.nb.b6.toNat) % 256 = t.nb.b7.toNat ∧ t.csum = t.nb.b7) ∧
    (exec .valth s = .next t → t.code = .ok →
      (t.nb.b0.toNat + t.nb.b1.toNat + t.nb.b2.toNat + t.nb.b3.toNat) % 256 = t.nb.b4.toNat ∧
        t.nb.b4 ≠ 0#8 ∧ t.csum = t.nb.b4) ∧
    (exec .val592 s = .next t → t.code = .ok →
      (t.nb.b0.toNat + t.nb.b1.toNat + t.nb.b2.toNat + t.nb.b3.toNat + t.nb.b4.toNat + t.nb.b5.toNat) % 256 =
        t.nb.b6.toNat ∧ t.csum = t.nb.b6 ∧ parOk t.paritySense t.nb.b3 = true ∧
        parOk t.paritySense t.nb.b4 = true ∧ parOk t.paritySense t.nb.b5 = true)

/-- A validator run again on an unchanged FRAME and BITLEN, whatever field, rain or control commands ran
between, gives the same NB, PROTO and STATUS fields as the first time (R82, and R86, which the spec derives
from R82 and R84). -/
def Obligations.RevalidationGivesSameOutcome : Prop :=
  ∀ (v j : Instr) (s t u w : State), isValidator v = true → isValidator j = false →
    exec v s = .next t → exec j t = .next u → exec v u = .next w →
    w.nb = t.nb ∧ w.proto = t.proto ∧ w.code = t.code ∧ w.parfail = t.parfail ∧ w.blset = t.blset ∧
      w.csum = t.csum

/-- A validator's decision depends on no more of the row than R98 says, and only VAL592's on BITLEN and
PARITY_SENSE (R88 and R98, which the spec derives from the validators' rules). -/
def Obligations.VerdictDependsOnlyOnExaminedBytes : Prop :=
  ∀ s t s' t' : State,
    s.frame.b0 = t.frame.b0 → s.frame.b1 = t.frame.b1 → s.frame.b2 = t.frame.b2 → s.frame.b3 = t.frame.b3 →
    s.frame.b4 = t.frame.b4 →
    (exec .valrg s = .next s' → exec .valrg t = .next t' →
      s'.proto = t'.proto ∧ s'.code = t'.code ∧ s'.code ≠ .checksumMismatch ∧ s'.code ≠ .parityMismatch) ∧
    (s.frame.b5 = t.frame.b5 → exec .valth s = .next s' → exec .valth t = .next t' →
      s'.proto = t'.proto ∧ s'.code = t'.code ∧ s'.csum = t'.csum) ∧
    (s.frame.b5 = t.frame.b5 → s.frame.b6 = t.frame.b6 → s.frame.b7 = t.frame.b7 →
      (s.bitlen = 0#16 ↔ t.bitlen = 0#16) → s.paritySense = t.paritySense →
      exec .val592 s = .next s' → exec .val592 t = .next t' →
      s'.proto = t'.proto ∧ s'.code = t'.code ∧ s'.parfail = t'.parfail ∧ s'.csum = t'.csum) ∧
    (s.frame = t.frame → exec .val5 s = .next s' → exec .val5 t = .next t' →
      s'.proto = t'.proto ∧ s'.code = t'.code ∧ s'.csum = t'.csum ∧ (s'.code = .ok → s'.nb = t'.nb))

/-! ### Field commands -/

/-- With PROTO = NONE, MTYPE5, every field command and RDELTA end with NOT_VALIDATED and compute nothing
(R174). -/
def Obligations.DecodeRefusedWithoutValidation : Prop :=
  ∀ (s : State) (i : Instr), s.proto = .none → i.wellFormed s.numRainInst = true →
    isFieldCommand i = true ∨ i = .mtype5 ∨ (∃ ia ib inst, i = .rdelta ia ib inst) →
    exec i s = .next { s with code := .notValidated, parfail := 0#3, blset := false, csum := 0#8 }

/-- MTYPE5 in every state (R101). -/
def Obligations.Mtype5Result : Prop :=
  ∀ s : State,
    let m := s.nb.b2.toNat % 16
    encode .mtype5 = 0x00000010#32 ∧
    (s.proto = .none → exec .mtype5 s = .next { s with
      code := .notValidated, parfail := 0#3, blset := false, csum := 0#8 }) ∧
    (s.proto ≠ .none → s.proto ≠ .fiveInOne → exec .mtype5 s = .next { s with
      code := .wrongKind, parfail := 0#3, blset := false, csum := 0#8 }) ∧
    (s.proto = .fiveInOne → exec .mtype5 s = .next { s with
      result0 := BitVec.ofNat 32 m, result1 := 0#32,
      code := if m = 1 ∨ m = 8 then .ok else .unknownSubtype, parfail := 0#3, blset := false, csum := 0#8 })

/-- TEMP5 on every pair of bytes and in every state (R102). -/
def Obligations.Temp5Result : Prop :=
  ∀ (s : State) (ia ib : ByteIndex),
    let raw := (s.nb.get ia).toNat % 16 * 128 + (s.nb.get ib).toNat % 128
    (encode (.temp5 ia ib)).toNat = 0x11 + ia.val * 2 ^ 8 + ib.val * 2 ^ 12 ∧ raw ≤ 2047 ∧
    (s.proto = .none → exec (.temp5 ia ib) s = .next { s with
      code := .notValidated, parfail := 0#3, blset := false, csum := 0#8 }) ∧
    (s.proto ≠ .none → exec (.temp5 ia ib) s = .next { s with
      result0 := BitVec.ofInt 32 ((raw : Int) - 400), result1 := BitVec.ofNat 32 raw,
      code := .ok, parfail := 0#3, blset := false, csum := 0#8 })

/-- TEMPTH on every pair of bytes and in every state: a 12-bit field at or above 0x800 reads as the field
less 4096 (R103). -/
def Obligations.TempthResult : Prop :=
  ∀ (s : State) (ia ib : ByteIndex),
    let raw := (s.nb.get ia).toNat % 16 * 256 + (s.nb.get ib).toNat
    (encode (.tempth ia ib)).toNat = 0x12 + ia.val * 2 ^ 8 + ib.val * 2 ^ 12 ∧ raw ≤ 4095 ∧
    (s.proto = .none → exec (.tempth ia ib) s = .next { s with
      code := .notValidated, parfail := 0#3, blset := false, csum := 0#8 }) ∧
    (s.proto ≠ .none → exec (.tempth ia ib) s = .next { s with
      result0 := BitVec.ofInt 32 (if raw < 0x800 then (raw : Int) else (raw : Int) - 4096),
      result1 := BitVec.ofNat 32 raw, code := .ok, parfail := 0#3, blset := false, csum := 0#8 })

/-- R104, which the spec derives from R11: the source's shift left by 4 and arithmetic shift right by 4, in a
16-bit word, is sext_12. -/
def Obligations.SourceShiftsAreSext12 : Prop :=
  ∀ raw : BitVec 12, (((raw.setWidth 16) <<< 4).sshiftRight 4).toInt = sext 12 raw.toNat

/-- TEMP592 on every pair of bytes and in every state (R105). -/
def Obligations.Temp592Result : Prop :=
  ∀ (s : State) (ia ib : ByteIndex),
    let raw := (s.nb.get ia).toNat % 128 * 128 + (s.nb.get ib).toNat % 128
    (encode (.temp592 ia ib)).toNat = 0x13 + ia.val * 2 ^ 8 + ib.val * 2 ^ 12 ∧ raw ≤ 16383 ∧
    (s.proto = .none → exec (.temp592 ia ib) s = .next { s with
      code := .notValidated, parfail := 0#3, blset := false, csum := 0#8 }) ∧
    (s.proto ≠ .none → ∃ t, exec (.temp592 ia ib) s = .next t ∧
      t.result0.toInt = (raw : Int) - 1000 ∧ t.result1.toInt = 9 * (raw : Int) - 7400 ∧
      t = { s with
        result0 := t.result0, result1 := t.result1,
        code := .ok, parfail := 0#3, blset := false, csum := 0#8 })

/-- WSPD on every pair of bytes and in every state (R107). -/
def Obligations.WspdResult : Prop :=
  ∀ (s : State) (ia ib : ByteIndex),
    let r := (s.nb.get ia).toNat % 32 * 8 + (s.nb.get ib).toNat / 16 % 8
    (encode (.wspd ia ib)).toNat = 0x14 + ia.val * 2 ^ 8 + ib.val * 2 ^ 12 ∧ r ≤ 255 ∧
    (s.proto = .none → exec (.wspd ia ib) s = .next { s with
      code := .notValidated, parfail := 0#3, blset := false, csum := 0#8 }) ∧
    (s.proto ≠ .none → exec (.wspd ia ib) s = .next { s with
      result0 := BitVec.ofNat 32 r, result1 := 0#32, code := .ok, parfail := 0#3, blset := false, csum := 0#8 })

/-- WDIR on every byte and in every state: the table of R106 is 337.5 degrees less 22.5 per index, in
tenths (R108; R106, which the spec derives from the source's description of the table). -/
def Obligations.WdirResult : Prop :=
  ∀ (s : State) (ia : ByteIndex),
    let k := (s.nb.get ia).toNat % 16
    (encode (.wdir ia)).toNat = 0x15 + ia.val * 2 ^ 8 ∧
    (s.proto = .none → exec (.wdir ia) s = .next { s with
      code := .notValidated, parfail := 0#3, blset := false, csum := 0#8 }) ∧
    (s.proto ≠ .none → exec (.wdir ia) s = .next { s with
      result0 := BitVec.ofNat 32 (3375 - 225 * k), result1 := BitVec.ofNat 32 k,
      code := .ok, parfail := 0#3, blset := false, csum := 0#8 })

/-- HUM on every byte and in every state (R109). -/
def Obligations.HumResult : Prop :=
  ∀ (s : State) (ia : ByteIndex),
    let r := (s.nb.get ia).toNat % 128
    (encode (.hum ia)).toNat = 0x16 + ia.val * 2 ^ 8 ∧ r ≤ 127 ∧
    (s.proto = .none → exec (.hum ia) s = .next { s with
      code := .notValidated, parfail := 0#3, blset := false, csum := 0#8 }) ∧
    (s.proto ≠ .none → exec (.hum ia) s = .next { s with
      result0 := BitVec.ofNat 32 r, result1 := 0#32, code := .ok, parfail := 0#3, blset := false, csum := 0#8 })

/-- RAIN14 on every pair of bytes and in every state; the baseline file is not touched (R110). -/
def Obligations.Rain14Result : Prop :=
  ∀ (s : State) (ia ib : ByteIndex),
    let r := (s.nb.get ia).toNat % 128 * 128 + (s.nb.get ib).toNat % 128
    (encode (.rain14 ia ib)).toNat = 0x17 + ia.val * 2 ^ 8 + ib.val * 2 ^ 12 ∧ r ≤ 16383 ∧
    (s.proto = .none → exec (.rain14 ia ib) s = .next { s with
      code := .notValidated, parfail := 0#3, blset := false, csum := 0#8 }) ∧
    (s.proto ≠ .none → exec (.rain14 ia ib) s = .next { s with
      result0 := BitVec.ofNat 32 r, result1 := 0#32, code := .ok, parfail := 0#3, blset := false, csum := 0#8 })

/-- RGTOTAL on every pair of bytes and in every state (R111). -/
def Obligations.RgtotalResult : Prop :=
  ∀ (s : State) (ia ib : ByteIndex),
    let r := (s.nb.get ia).toNat % 16 * 256 + (s.nb.get ib).toNat
    (encode (.rgtotal ia ib)).toNat = 0x18 + ia.val * 2 ^ 8 + ib.val * 2 ^ 12 ∧ r ≤ 4095 ∧
    (s.proto = .none → exec (.rgtotal ia ib) s = .next { s with
      code := .notValidated, parfail := 0#3, blset := false, csum := 0#8 }) ∧
    (s.proto ≠ .none → exec (.rgtotal ia ib) s = .next { s with
      result0 := BitVec.ofNat 32 r, result1 := 0#32, code := .ok, parfail := 0#3, blset := false, csum := 0#8 })

/-- MTYPE5 and the field commands read PROTO and NB and nothing else: two states that agree there end with
the same code, and the same results when they write them (R100, R101). -/
def Obligations.DecodeReadsOnlyProtoAndNb : Prop :=
  ∀ (i : Instr) (s t s' t' : State), isFieldCommand i = true ∨ i = .mtype5 →
    s.proto = t.proto → s.nb = t.nb → exec i s = .next s' → exec i t = .next t' →
    s'.code = t'.code ∧ (s'.code = .ok ∨ s'.code = .unknownSubtype →
      s'.result0 = t'.result0 ∧ s'.result1 = t'.result1)

/-! ### Rain baseline -/

/-- RDELTA on an entry that exists, in every state and on every pair of bytes (R131). -/
def Obligations.RdeltaResult : Prop :=
  ∀ (s : State) (ia ib : ByteIndex) (inst : InstIndex) (e : RainEntry), s.rain[inst.val]? = some e →
    let raw := (s.nb.get ia).toNat % 128 * 128 + (s.nb.get ib).toNat % 128
    (encode (.rdelta ia ib inst)).toNat = 0x20 + ia.val * 2 ^ 8 + ib.val * 2 ^ 12 + inst.val * 2 ^ 16 ∧
    (s.proto = .none → exec (.rdelta ia ib inst) s = .next { s with
      code := .notValidated, parfail := 0#3, blset := false, csum := 0#8 }) ∧
    (s.proto ≠ .none → s.proto ≠ .fiveInOne ∨ s.nb.b2.toNat % 16 ≠ 1 →
      exec (.rdelta ia ib inst) s = .next { s with
        code := .wrongKind, parfail := 0#3, blset := false, csum := 0#8 }) ∧
    (s.proto = .fiveInOne → s.nb.b2.toNat % 16 = 1 → e.bv = false →
      exec (.rdelta ia ib inst) s = .next { s with
        rain := s.rain.set inst.val ⟨true, BitVec.ofNat 14 raw⟩, result0 := 0#32,
        result1 := BitVec.ofNat 32 raw, code := .ok, parfail := 0#3, blset := true, csum := 0#8 }) ∧
    (s.proto = .fiveInOne → s.nb.b2.toNat % 16 = 1 → e.bv = true →
      exec (.rdelta ia ib inst) s = .next { s with
        result0 := BitVec.ofNat 32 ((raw + 2 ^ 14 - e.bval.toNat) % 2 ^ 14),
        result1 := BitVec.ofNat 32 raw, code := .ok, parfail := 0#3, blset := false, csum := 0#8 })

/-- RCLR on an entry that exists, in every state (R134). -/
def Obligations.RclrResult : Prop :=
  ∀ (s : State) (inst : InstIndex), inst.val < s.numRainInst →
    (encode (.rclr inst)).toNat = 0x21 + inst.val * 2 ^ 16 ∧
    exec (.rclr inst) s = .next { s with
      rain := s.rain.set inst.val ⟨false, 0#14⟩, code := .ok, parfail := 0#3, blset := false, csum := 0#8 }

/-- An INST that names no entry: RDELTA and RCLR report ILLEGAL_COMMAND and change nothing else, as decode
does with such a word (R64; the model's reading of the meaning apart from decode, notes/assumptions/7.md). -/
def Obligations.RainCommandsRejectMissingEntry : Prop :=
  ∀ (s : State) (ia ib : ByteIndex) (inst : InstIndex), s.numRainInst ≤ inst.val →
    exec (.rdelta ia ib inst) s =
      .next { s with code := .illegalCommand, parfail := 0#3, blset := false, csum := 0#8 } ∧
    exec (.rclr inst) s =
      .next { s with code := .illegalCommand, parfail := 0#3, blset := false, csum := 0#8 }

/-- R132 and R135: on a clear entry, a type-1 frame of counter C sets the baseline to C with delta 0 and BLSET,
and one `tips` later (mod 2^14) gives exactly `tips`, as long as fewer than 16384 tips have occurred. The second
frame may be loaded and validated in any way that keeps the entry. The spec derives R135 from R131. -/
def Obligations.RainDeltaCountsTipsSinceBaseline : Prop :=
  ∀ (s t u : State) (ia ib : ByteIndex) (inst : InstIndex) (e : RainEntry) (tips : Nat),
    s.rain[inst.val]? = some e → e.bv = false → s.proto = .fiveInOne → s.nb.b2.toNat % 16 = 1 →
    exec (.rdelta ia ib inst) s = .next t →
    u.rain = t.rain → u.proto = .fiveInOne → u.nb.b2.toNat % 16 = 1 → tips < 2 ^ 14 →
    (u.nb.get ia).toNat % 128 * 128 + (u.nb.get ib).toNat % 128 =
      ((s.nb.get ia).toNat % 128 * 128 + (s.nb.get ib).toNat % 128 + tips) % 2 ^ 14 →
    t.rain[inst.val]? =
        some ⟨true, BitVec.ofNat 14 ((s.nb.get ia).toNat % 128 * 128 + (s.nb.get ib).toNat % 128)⟩ ∧
      t.result0 = 0#32 ∧ t.blset = true ∧
      ∃ w, exec (.rdelta ia ib inst) u = .next w ∧ w.result0.toNat = tips ∧ w.blset = false ∧ w.code = .ok

/-- R136, which the spec derives from R131 and R134: RDELTA and RCLR on instance i read and write only entry i. -/
def Obligations.RainInstancesAreIndependent : Prop :=
  ∀ (s t s' t' : State) (ia ib : ByteIndex) (inst : InstIndex) (i : Instr),
    i = .rdelta ia ib inst ∨ i = .rclr inst → exec i s = .next s' →
    (∀ k : Nat, k ≠ inst.val → s'.rain[k]? = s.rain[k]?) ∧
    (t.proto = s.proto → t.nb = s.nb → t.result0 = s.result0 → t.result1 = s.result1 →
      t.rain[inst.val]? = s.rain[inst.val]? →
      exec i t = .next t' →
      t'.rain[inst.val]? = s'.rain[inst.val]? ∧ t'.result0 = s'.result0 ∧ t'.result1 = s'.result1 ∧
        t'.code = s'.code ∧ t'.blset = s'.blset)

/-! ### Frames, through the host's view of the block -/

/-- The validators leave every register's word as it was but STATUS and, when they accept, NB; the
parameters and the host's side stay. -/
def Obligations.ValidatorFrame : Prop :=
  ∀ (i : Instr) (s t : State), isValidator i = true → exec i s = .next t →
    (∀ a : RegAddr, a.toNat ≠ 0x01 → (0x20 ≤ a.toNat ∧ a.toNat ≤ 0x28 → t.code ≠ .ok) →
      hostRead a t = hostRead a s) ∧
    t.paritySense = s.paritySense ∧ t.pending = s.pending ∧ t.readData = s.readData

/-- MTYPE5 and the field commands leave every register's word as it was but STATUS, RESULT0 and RESULT1,
and PROTO with its two views in STATUS (bits 8 and 11:9). -/
def Obligations.FieldCommandFrame : Prop :=
  ∀ (i : Instr) (s t : State), isFieldCommand i = true ∨ i = .mtype5 → exec i s = .next t →
    (∀ a : RegAddr, a.toNat ≠ 0x01 → a.toNat ≠ 0x02 → a.toNat ≠ 0x03 → hostRead a t = hostRead a s) ∧
    t.proto = s.proto ∧ (statusWord t).extractLsb' 8 4 = (statusWord s).extractLsb' 8 4 ∧
    t.paritySense = s.paritySense ∧ t.pending = s.pending ∧ t.readData = s.readData

/-- RDELTA and RCLR leave every register's word as it was but STATUS, their own RBASE entry and, for RDELTA,
RESULT0 and RESULT1. -/
def Obligations.RainCommandFrame : Prop :=
  ∀ (ia ib : ByteIndex) (inst : InstIndex) (s t : State),
    (exec (.rdelta ia ib inst) s = .next t →
      (∀ a : RegAddr, a.toNat ≠ 0x01 → a.toNat ≠ 0x02 → a.toNat ≠ 0x03 → a.toNat ≠ 0x30 + inst.val →
        hostRead a t = hostRead a s) ∧
      t.proto = s.proto ∧ t.paritySense = s.paritySense ∧ t.pending = s.pending ∧ t.readData = s.readData) ∧
    (exec (.rclr inst) s = .next t →
      (∀ a : RegAddr, a.toNat ≠ 0x01 → a.toNat ≠ 0x30 + inst.val → hostRead a t = hostRead a s) ∧
      t.proto = s.proto ∧ t.paritySense = s.paritySense ∧ t.pending = s.pending ∧ t.readData = s.readData)
end

