-- ==== Sys2Proof/Laws/Decode.lean ====
section
/-! SUPPORT. The fields of a word as numbers, the fields of an encoded word, and what the operand checks
answer. -/

namespace Sys2Proof

theorem opcField_eq (w : Word) : opcField w = w.toNat % 2 ^ 8 := by
  simp [opcField, BitVec.extractLsb'_toNat]

theorem iaField_eq (w : Word) : iaField w = w.toNat / 2 ^ 8 % 2 ^ 4 := by
  simp [iaField, BitVec.extractLsb'_toNat, Nat.shiftRight_eq_div_pow]

theorem ibField_eq (w : Word) : ibField w = w.toNat / 2 ^ 12 % 2 ^ 4 := by
  simp [ibField, BitVec.extractLsb'_toNat, Nat.shiftRight_eq_div_pow]

theorem instField_eq (w : Word) : instField w = w.toNat / 2 ^ 16 % 2 ^ 4 := by
  simp [instField, BitVec.extractLsb'_toNat, Nat.shiftRight_eq_div_pow]

theorem resField_eq (w : Word) : resField w = w.toNat / 2 ^ 20 := by
  have := w.isLt
  simp only [resField, BitVec.extractLsb'_toNat, Nat.shiftRight_eq_div_pow]
  exact Nat.mod_eq_of_lt (by omega)

/-- A word is its five fields (R61). -/
theorem word_eq_fields (w : Word) : w.toNat =
    opcField w + iaField w * 2 ^ 8 + ibField w * 2 ^ 12 + instField w * 2 ^ 16 + resField w * 2 ^ 20 := by
  rw [opcField_eq, iaField_eq, ibField_eq, instField_eq, resField_eq]
  omega

/-- An encoded word as a number: the fields do not overlap (R67). -/
theorem enc_toNat {opc ia ib inst : Nat} (ho : opc < 2 ^ 8) (ha : ia < 2 ^ 4) (hb : ib < 2 ^ 4)
    (hi : inst < 2 ^ 4) :
    (enc opc ia ib inst).toNat = opc + ia * 2 ^ 8 + ib * 2 ^ 12 + inst * 2 ^ 16 := by
  have h1 : opc ||| (ia <<< 8) = opc + ia * 2 ^ 8 := by
    rw [Nat.or_comm, ← Nat.shiftLeft_add_eq_or_of_lt ho, Nat.shiftLeft_eq, Nat.add_comm]
  have h2 : opc ||| (ia <<< 8) ||| (ib <<< 12) = opc + ia * 2 ^ 8 + ib * 2 ^ 12 := by
    rw [h1, Nat.or_comm, ← Nat.shiftLeft_add_eq_or_of_lt (by omega), Nat.shiftLeft_eq, Nat.add_comm]
  have h3 : opc ||| (ia <<< 8) ||| (ib <<< 12) ||| (inst <<< 16) =
      opc + ia * 2 ^ 8 + ib * 2 ^ 12 + inst * 2 ^ 16 := by
    rw [h2, Nat.or_comm, ← Nat.shiftLeft_add_eq_or_of_lt (by omega), Nat.shiftLeft_eq, Nat.add_comm]
  rw [enc, h3, BitVec.toNat_ofNat]
  exact Nat.mod_eq_of_lt (by omega)

/-- The fields of an encoded word are what was encoded. -/
theorem enc_fields {opc ia ib inst : Nat} (ho : opc < 2 ^ 8) (ha : ia < 2 ^ 4) (hb : ib < 2 ^ 4)
    (hi : inst < 2 ^ 4) :
    opcField (enc opc ia ib inst) = opc ∧ iaField (enc opc ia ib inst) = ia ∧
      ibField (enc opc ia ib inst) = ib ∧ instField (enc opc ia ib inst) = inst ∧
      resField (enc opc ia ib inst) = 0 := by
  rw [opcField_eq, iaField_eq, ibField_eq, instField_eq, resField_eq, enc_toNat ho ha hb hi]
  omega

theorem byteOperand_val (i : ByteIndex) : byteOperand i.val = .ok i := by
  simp [byteOperand]

theorem rainOperand_val {numInst : Nat} (i : InstIndex) (h : i.val < numInst) :
    rainOperand numInst i.val = .ok i := by
  simp [rainOperand, h]

/-- A byte operand is accepted exactly when it is the number of an index 0..8. -/
theorem byteOperand_ok {n : Nat} {i : ByteIndex} : byteOperand n = .ok i ↔ n = i.val := by
  unfold byteOperand
  split
  · rw [Except.ok.injEq, Fin.ext_iff]
  · have := i.isLt
    simp only [reduceCtorEq, false_iff]
    omega

/-- A rain operand is accepted exactly when it is the number of an entry that exists. -/
theorem rainOperand_ok {numInst n : Nat} {i : InstIndex} :
    rainOperand numInst n = .ok i ↔ n = i.val ∧ n < numInst := by
  have := i.isLt
  unfold rainOperand
  split
  · split
    · rw [Except.ok.injEq, Fin.ext_iff]; simp_all
    · simp only [reduceCtorEq, false_iff]; omega
  · simp only [reduceCtorEq, false_iff]; omega

/-- The encoded word of a command, as `enc` of its opcode and operands (R67). -/
theorem encode_ne_zero {opc ia ib inst : Nat} (h0 : opc ≠ 0) (ho : opc < 2 ^ 8) (ha : ia < 2 ^ 4)
    (hb : ib < 2 ^ 4) (hi : inst < 2 ^ 4) : enc opc ia ib inst ≠ 0#32 := by
  intro h
  have := enc_toNat ho ha hb hi
  rw [h] at this
  simp only [BitVec.toNat_ofNat] at this
  omega

end Sys2Proof
end

