-- ==== Sys2Proof/Laws/Operands.lean ====
section
/-! SUPPORT. What the field formulas of 41_field_decode.md are as numbers, and their ranges. -/

namespace Sys2Proof.Machine

/-- A field of two parts whose low part fits below the high part is their sum. -/
theorem shift_or_eq (a b k : Nat) (h : b < 2 ^ k) : (a <<< k) ||| b = a * 2 ^ k + b := by
  rw [← Nat.shiftLeft_add_eq_or_of_lt h, Nat.shiftLeft_eq]

theorem and_0F (n : Nat) : n &&& 0x0F = n % 16 := Nat.and_two_pow_sub_one_eq_mod n 4

theorem and_1F (n : Nat) : n &&& 0x1F = n % 32 := Nat.and_two_pow_sub_one_eq_mod n 5

theorem and_7F (n : Nat) : n &&& 0x7F = n % 128 := Nat.and_two_pow_sub_one_eq_mod n 7

theorem messageType_eq (b : Byte) : messageType b = b.toNat % 16 := and_0F _

theorem temp5Raw_eq (hi lo : Byte) :
    temp5Raw hi lo = hi.toNat % 16 * 128 + lo.toNat % 128 := by
  unfold temp5Raw
  rw [and_0F, and_7F]
  exact shift_or_eq _ _ 7 (Nat.mod_lt _ (by decide))

theorem tempthRaw_eq (b1 b2 : Byte) : tempthRaw b1 b2 = b1.toNat % 16 * 256 + b2.toNat := by
  unfold tempthRaw
  rw [and_0F]
  exact shift_or_eq _ _ 8 b2.isLt

theorem temp592Raw_eq (hi lo : Byte) :
    temp592Raw hi lo = hi.toNat % 128 * 128 + lo.toNat % 128 := by
  unfold temp592Raw
  rw [and_7F, and_7F]
  exact shift_or_eq _ _ 7 (Nat.mod_lt _ (by decide))

theorem rainCounter_eq (hi lo : Byte) :
    rainCounter hi lo = hi.toNat % 128 * 128 + lo.toNat % 128 := temp592Raw_eq hi lo

theorem and_70_shift (n : Nat) : (n &&& 0x70) >>> 4 = n / 16 % 8 := by
  rw [Nat.shiftRight_and_distrib, Nat.shiftRight_eq_div_pow]
  exact Nat.and_two_pow_sub_one_eq_mod (n / 2 ^ 4) 3

theorem windSpeed_eq (hi lo : Byte) :
    windSpeed hi lo = hi.toNat % 32 * 8 + lo.toNat / 16 % 8 := by
  unfold windSpeed
  rw [and_1F, and_70_shift]
  exact shift_or_eq _ _ 3 (Nat.mod_lt _ (by decide))

theorem compassIndex_eq (b : Byte) : compassIndex b = b.toNat % 16 := and_0F _

theorem humidity_eq (b : Byte) : humidity b = b.toNat % 128 := and_7F _

theorem bucketTotal_eq (b1 b2 : Byte) : bucketTotal b1 b2 = b1.toNat % 16 * 256 + b2.toNat := by
  unfold bucketTotal
  rw [and_0F, Nat.shiftLeft_eq]

/-- Every counter fits the 14 bits of BVAL. -/
theorem rainCounter_lt (hi lo : Byte) : rainCounter hi lo < 2 ^ 14 := by
  rw [rainCounter_eq]; omega

/-- `sum8` over bytes 0..6, as VAL5 takes it (R80). -/
theorem sum8_0_6 (r : Row) : sum8 r 0 6 = BitVec.ofNat 8 (r.b0.toNat + r.b1.toNat + r.b2.toNat +
    r.b3.toNat + r.b4.toNat + r.b5.toNat + r.b6.toNat) := by
  simp [sum8, Row.toList, Nat.add_assoc]

/-- `sum8` over bytes 0..3, as VALTH takes it (R80). -/
theorem sum8_0_3 (r : Row) : sum8 r 0 3 = BitVec.ofNat 8 (r.b0.toNat + r.b1.toNat + r.b2.toNat +
    r.b3.toNat) := by
  simp [sum8, Row.toList, Nat.add_assoc]

/-- `sum8` over bytes 0..5, as VAL592 takes it (R80). -/
theorem sum8_0_5 (r : Row) : sum8 r 0 5 = BitVec.ofNat 8 (r.b0.toNat + r.b1.toNat + r.b2.toNat +
    r.b3.toNat + r.b4.toNat + r.b5.toNat) := by
  simp [sum8, Row.toList, Nat.add_assoc]

end Sys2Proof.Machine
end

