-- ==== Sys2Proof/Laws/State.lean ====
section
/-! SUPPORT. One lemma per field per update of the state, so that no proof unfolds a record update; and
the fields of the state after reset. -/

namespace Sys2Proof.Machine

section
variable (s : State) (c : StatusCode) (p : BitVec 3) (b : Bool) (k : Byte)

@[simp] theorem setStatus_frame : (setStatus c p b k s).frame = s.frame := rfl
@[simp] theorem setStatus_nb : (setStatus c p b k s).nb = s.nb := rfl
@[simp] theorem setStatus_bitlen : (setStatus c p b k s).bitlen = s.bitlen := rfl
@[simp] theorem setStatus_proto : (setStatus c p b k s).proto = s.proto := rfl
@[simp] theorem setStatus_code : (setStatus c p b k s).code = c := rfl
@[simp] theorem setStatus_parfail : (setStatus c p b k s).parfail = p := rfl
@[simp] theorem setStatus_blset : (setStatus c p b k s).blset = b := rfl
@[simp] theorem setStatus_csum : (setStatus c p b k s).csum = k := rfl
@[simp] theorem setStatus_result0 : (setStatus c p b k s).result0 = s.result0 := rfl
@[simp] theorem setStatus_result1 : (setStatus c p b k s).result1 = s.result1 := rfl
@[simp] theorem setStatus_cmd : (setStatus c p b k s).cmd = s.cmd := rfl
@[simp] theorem setStatus_rain : (setStatus c p b k s).rain = s.rain := rfl
@[simp] theorem setStatus_paritySense : (setStatus c p b k s).paritySense = s.paritySense := rfl
@[simp] theorem setStatus_pending : (setStatus c p b k s).pending = s.pending := rfl
@[simp] theorem setStatus_readData : (setStatus c p b k s).readData = s.readData := rfl

end

section
variable (s : State) (c : StatusCode)

@[simp] theorem raise_frame : (raise c s).frame = s.frame := rfl
@[simp] theorem raise_nb : (raise c s).nb = s.nb := rfl
@[simp] theorem raise_bitlen : (raise c s).bitlen = s.bitlen := rfl
@[simp] theorem raise_proto : (raise c s).proto = s.proto := rfl
@[simp] theorem raise_code : (raise c s).code = c := rfl
@[simp] theorem raise_parfail : (raise c s).parfail = 0#3 := rfl
@[simp] theorem raise_blset : (raise c s).blset = false := rfl
@[simp] theorem raise_csum : (raise c s).csum = 0#8 := rfl
@[simp] theorem raise_result0 : (raise c s).result0 = s.result0 := rfl
@[simp] theorem raise_result1 : (raise c s).result1 = s.result1 := rfl
@[simp] theorem raise_cmd : (raise c s).cmd = s.cmd := rfl
@[simp] theorem raise_rain : (raise c s).rain = s.rain := rfl
@[simp] theorem raise_paritySense : (raise c s).paritySense = s.paritySense := rfl
@[simp] theorem raise_pending : (raise c s).pending = s.pending := rfl
@[simp] theorem raise_readData : (raise c s).readData = s.readData := rfl

end

section
variable (s : State) (r0 r1 : Int)

@[simp] theorem setResults_frame : (setResults r0 r1 s).frame = s.frame := rfl
@[simp] theorem setResults_nb : (setResults r0 r1 s).nb = s.nb := rfl
@[simp] theorem setResults_bitlen : (setResults r0 r1 s).bitlen = s.bitlen := rfl
@[simp] theorem setResults_proto : (setResults r0 r1 s).proto = s.proto := rfl
@[simp] theorem setResults_code : (setResults r0 r1 s).code = s.code := rfl
@[simp] theorem setResults_parfail : (setResults r0 r1 s).parfail = s.parfail := rfl
@[simp] theorem setResults_blset : (setResults r0 r1 s).blset = s.blset := rfl
@[simp] theorem setResults_csum : (setResults r0 r1 s).csum = s.csum := rfl
@[simp] theorem setResults_result0 : (setResults r0 r1 s).result0 = tc32 r0 := rfl
@[simp] theorem setResults_result1 : (setResults r0 r1 s).result1 = tc32 r1 := rfl
@[simp] theorem setResults_cmd : (setResults r0 r1 s).cmd = s.cmd := rfl
@[simp] theorem setResults_rain : (setResults r0 r1 s).rain = s.rain := rfl
@[simp] theorem setResults_paritySense : (setResults r0 r1 s).paritySense = s.paritySense := rfl
@[simp] theorem setResults_pending : (setResults r0 r1 s).pending = s.pending := rfl
@[simp] theorem setResults_readData : (setResults r0 r1 s).readData = s.readData := rfl

end

section
variable (s : State) (i : Nat) (e : RainEntry)

@[simp] theorem setRain_frame : (setRain i e s).frame = s.frame := rfl
@[simp] theorem setRain_nb : (setRain i e s).nb = s.nb := rfl
@[simp] theorem setRain_bitlen : (setRain i e s).bitlen = s.bitlen := rfl
@[simp] theorem setRain_proto : (setRain i e s).proto = s.proto := rfl
@[simp] theorem setRain_code : (setRain i e s).code = s.code := rfl
@[simp] theorem setRain_parfail : (setRain i e s).parfail = s.parfail := rfl
@[simp] theorem setRain_blset : (setRain i e s).blset = s.blset := rfl
@[simp] theorem setRain_csum : (setRain i e s).csum = s.csum := rfl
@[simp] theorem setRain_result0 : (setRain i e s).result0 = s.result0 := rfl
@[simp] theorem setRain_result1 : (setRain i e s).result1 = s.result1 := rfl
@[simp] theorem setRain_cmd : (setRain i e s).cmd = s.cmd := rfl
@[simp] theorem setRain_rain : (setRain i e s).rain = s.rain.set i e := rfl
@[simp] theorem setRain_paritySense : (setRain i e s).paritySense = s.paritySense := rfl
@[simp] theorem setRain_pending : (setRain i e s).pending = s.pending := rfl
@[simp] theorem setRain_readData : (setRain i e s).readData = s.readData := rfl

end

section
variable (s : State) (i : ByteIndex) (v : Word)

@[simp] theorem writeFrame_frame : (writeFrame i v s).frame = s.frame.set i (v.setWidth 8) := rfl
@[simp] theorem writeFrame_nb : (writeFrame i v s).nb = s.nb := rfl
@[simp] theorem writeFrame_bitlen : (writeFrame i v s).bitlen = s.bitlen := rfl
@[simp] theorem writeFrame_proto : (writeFrame i v s).proto = .none := rfl
@[simp] theorem writeFrame_code : (writeFrame i v s).code = s.code := rfl
@[simp] theorem writeFrame_parfail : (writeFrame i v s).parfail = s.parfail := rfl
@[simp] theorem writeFrame_blset : (writeFrame i v s).blset = s.blset := rfl
@[simp] theorem writeFrame_csum : (writeFrame i v s).csum = s.csum := rfl
@[simp] theorem writeFrame_result0 : (writeFrame i v s).result0 = s.result0 := rfl
@[simp] theorem writeFrame_result1 : (writeFrame i v s).result1 = s.result1 := rfl
@[simp] theorem writeFrame_cmd : (writeFrame i v s).cmd = s.cmd := rfl
@[simp] theorem writeFrame_rain : (writeFrame i v s).rain = s.rain := rfl
@[simp] theorem writeFrame_paritySense : (writeFrame i v s).paritySense = s.paritySense := rfl
@[simp] theorem writeFrame_pending : (writeFrame i v s).pending = s.pending := rfl
@[simp] theorem writeFrame_readData : (writeFrame i v s).readData = s.readData := rfl

end

section
variable (s : State) (v : Word)

@[simp] theorem writeBitlen_frame : (writeBitlen v s).frame = s.frame := rfl
@[simp] theorem writeBitlen_nb : (writeBitlen v s).nb = s.nb := rfl
@[simp] theorem writeBitlen_bitlen : (writeBitlen v s).bitlen = v.setWidth 16 := rfl
@[simp] theorem writeBitlen_proto : (writeBitlen v s).proto = .none := rfl
@[simp] theorem writeBitlen_code : (writeBitlen v s).code = s.code := rfl
@[simp] theorem writeBitlen_parfail : (writeBitlen v s).parfail = s.parfail := rfl
@[simp] theorem writeBitlen_blset : (writeBitlen v s).blset = s.blset := rfl
@[simp] theorem writeBitlen_csum : (writeBitlen v s).csum = s.csum := rfl
@[simp] theorem writeBitlen_result0 : (writeBitlen v s).result0 = s.result0 := rfl
@[simp] theorem writeBitlen_result1 : (writeBitlen v s).result1 = s.result1 := rfl
@[simp] theorem writeBitlen_cmd : (writeBitlen v s).cmd = s.cmd := rfl
@[simp] theorem writeBitlen_rain : (writeBitlen v s).rain = s.rain := rfl
@[simp] theorem writeBitlen_paritySense : (writeBitlen v s).paritySense = s.paritySense := rfl
@[simp] theorem writeBitlen_pending : (writeBitlen v s).pending = s.pending := rfl
@[simp] theorem writeBitlen_readData : (writeBitlen v s).readData = s.readData := rfl

end

section
variable (s : State) (p : List HostLine)

@[simp] theorem issue_frame : (s.issue p).frame = s.frame := rfl
@[simp] theorem issue_nb : (s.issue p).nb = s.nb := rfl
@[simp] theorem issue_bitlen : (s.issue p).bitlen = s.bitlen := rfl
@[simp] theorem issue_proto : (s.issue p).proto = s.proto := rfl
@[simp] theorem issue_code : (s.issue p).code = s.code := rfl
@[simp] theorem issue_parfail : (s.issue p).parfail = s.parfail := rfl
@[simp] theorem issue_blset : (s.issue p).blset = s.blset := rfl
@[simp] theorem issue_csum : (s.issue p).csum = s.csum := rfl
@[simp] theorem issue_result0 : (s.issue p).result0 = s.result0 := rfl
@[simp] theorem issue_result1 : (s.issue p).result1 = s.result1 := rfl
@[simp] theorem issue_cmd : (s.issue p).cmd = s.cmd := rfl
@[simp] theorem issue_rain : (s.issue p).rain = s.rain := rfl
@[simp] theorem issue_paritySense : (s.issue p).paritySense = s.paritySense := rfl
@[simp] theorem issue_pending : (s.issue p).pending = s.pending ++ programEvents p := rfl
@[simp] theorem issue_readData : (s.issue p).readData = s.readData := rfl

end

section
variable (p : ParitySense) (n : Nat) (l : List HostEvent)

@[simp] theorem powerOn_frame : (State.powerOn p n l).frame = Row.zero := rfl
@[simp] theorem powerOn_nb : (State.powerOn p n l).nb = Row.zero := rfl
@[simp] theorem powerOn_bitlen : (State.powerOn p n l).bitlen = 0#16 := rfl
@[simp] theorem powerOn_proto : (State.powerOn p n l).proto = .none := rfl
@[simp] theorem powerOn_code : (State.powerOn p n l).code = .ok := rfl
@[simp] theorem powerOn_parfail : (State.powerOn p n l).parfail = 0#3 := rfl
@[simp] theorem powerOn_blset : (State.powerOn p n l).blset = false := rfl
@[simp] theorem powerOn_csum : (State.powerOn p n l).csum = 0#8 := rfl
@[simp] theorem powerOn_result0 : (State.powerOn p n l).result0 = 0#32 := rfl
@[simp] theorem powerOn_result1 : (State.powerOn p n l).result1 = 0#32 := rfl
@[simp] theorem powerOn_cmd : (State.powerOn p n l).cmd = 0#32 := rfl
@[simp] theorem powerOn_rain : (State.powerOn p n l).rain = List.replicate n RainEntry.clear := rfl
@[simp] theorem powerOn_paritySense : (State.powerOn p n l).paritySense = p := rfl
@[simp] theorem powerOn_pending : (State.powerOn p n l).pending = l := rfl
@[simp] theorem powerOn_readData : (State.powerOn p n l).readData = none := rfl

end

end Sys2Proof.Machine
end

