-- ==== Sys2Proof/Laws/Ops.lean ====
section
/-! SUPPORT. What each shared operation can do, said once: the field-command template, the validator
template, the verdicts, the register map, and the totality of `exec` and `step`. -/

namespace Sys2Proof.Machine

/-! ### Rows -/

@[simp] theorem get_set_same (r : Row) (i : ByteIndex) (v : Byte) : (r.set i v).get i = v := by
  fin_cases i <;> rfl

theorem get_set_other (r : Row) (i j : ByteIndex) (v : Byte) (h : j ≠ i) :
    (r.set i v).get j = r.get j := by
  fin_cases i <;> fin_cases j <;> first | rfl | exact absurd rfl h

/-- Two rows with the same nine bytes are the same row. -/
theorem row_ext (r q : Row) (h : ∀ i, r.get i = q.get i) : r = q := by
  cases r; cases q
  simp only [Row.mk.injEq]
  exact ⟨h 0, h 1, h 2, h 3, h 4, h 5, h 6, h 7, h 8⟩

/-- `setRain` never changes how many entries there are. -/
@[simp] theorem setRain_length (s : State) (i : Nat) (e : RainEntry) :
    (setRain i e s).rain.length = s.rain.length := by
  simp

/-! ### Templates -/

theorem fieldCommand_none (r0 r1 : Int) (s : State) (h : s.proto = .none) :
    fieldCommand r0 r1 s = raise .notValidated s := by
  simp [fieldCommand, h]

theorem fieldCommand_some (r0 r1 : Int) (s : State) (h : s.proto ≠ .none) :
    fieldCommand r0 r1 s = setStatus .ok 0#3 false 0#8 (setResults r0 r1 s) := by
  simp [fieldCommand, h]

/-- All that a field command can do: refuse with NOT_VALIDATED, or write both results and OK. -/
theorem fieldCommand_cases (r0 r1 : Int) (s : State) :
    (s.proto = .none ∧ fieldCommand r0 r1 s = raise .notValidated s) ∨
    (s.proto ≠ .none ∧ fieldCommand r0 r1 s = setStatus .ok 0#3 false 0#8 (setResults r0 r1 s)) := by
  by_cases h : s.proto = .none
  · exact .inl ⟨h, fieldCommand_none r0 r1 s h⟩
  · exact .inr ⟨h, fieldCommand_some r0 r1 s h⟩

/-- All that a validator can do (R82): what an accept writes and what a reject writes. -/
theorem conclude_cases (v : Verdict) (s : State) :
    (∃ nb proto csum, v = .accept nb proto csum ∧
      conclude v s = { s with nb := nb, proto := proto, code := .ok, parfail := 0#3, blset := false, csum := csum }) ∨
    (∃ code parfail csum, v = .reject code parfail csum ∧
      conclude v s = { s with proto := .none, code := code, parfail := parfail, blset := false, csum := csum }) := by
  cases v with
  | accept nb proto csum => exact .inl ⟨nb, proto, csum, rfl, rfl⟩
  | reject code parfail csum => exact .inr ⟨code, parfail, csum, rfl, rfl⟩

/-! ### Verdicts -/

/-- The two ways VAL5 rejects and the one way it accepts (R84). -/
theorem judge5_cases (f : Row) :
    (f.b0 = 0#8 ∧ judge5 f = .reject .structuralMismatch 0#3 0#8) ∨
    (f.b0 ≠ 0#8 ∧ sum8 (norm5 f) 0 6 = (norm5 f).b7 ∧
      judge5 f = .accept (norm5 f) .fiveInOne (sum8 (norm5 f) 0 6)) ∨
    (f.b0 ≠ 0#8 ∧ sum8 (norm5 f) 0 6 ≠ (norm5 f).b7 ∧
      judge5 f = .reject .checksumMismatch 0#3 (sum8 (norm5 f) 0 6)) := by
  unfold judge5
  by_cases h0 : f.b0 = 0#8
  · simp [h0]
  · by_cases h1 : sum8 (norm5 f) 0 6 = (norm5 f).b7 <;> simp [h0, h1]

/-- The one way VALRG accepts and the one way it rejects (R87). -/
theorem judgeRg_cases (f : Row) :
    ((f.b0 ≠ 0#8 ∧ f.b1 ≠ 0#8 ∧ f.b2 ≠ 0#8 ∧ f.b3 = 0#8 ∧ f.b4 = 0#8) ∧ judgeRg f = .accept f .rainGauge 0#8) ∨
    (¬ (f.b0 ≠ 0#8 ∧ f.b1 ≠ 0#8 ∧ f.b2 ≠ 0#8 ∧ f.b3 = 0#8 ∧ f.b4 = 0#8) ∧
      judgeRg f = .reject .structuralMismatch 0#3 0#8) := by
  unfold judgeRg
  split
  · exact .inl ⟨‹_›, rfl⟩
  · exact .inr ⟨‹_›, rfl⟩

/-- The three ways VALTH rejects and the one way it accepts (R89). -/
theorem judgeTh_cases (f : Row) :
    (f.b5 ≠ 0#8 ∧ judgeTh f = .reject .structuralMismatch 0#3 0#8) ∨
    (f.b5 = 0#8 ∧ (sum8 f 0 3 = 0#8 ∨ sum8 f 0 3 ≠ f.b4) ∧
      judgeTh f = .reject .checksumMismatch 0#3 (sum8 f 0 3)) ∨
    (f.b5 = 0#8 ∧ sum8 f 0 3 ≠ 0#8 ∧ sum8 f 0 3 = f.b4 ∧
      judgeTh f = .accept f .basicTh (sum8 f 0 3)) := by
  unfold judgeTh
  by_cases h5 : f.b5 = 0#8
  · by_cases h0 : sum8 f 0 3 = 0#8
    · simp [h5, h0]
    · by_cases h4 : sum8 f 0 3 = f.b4
      · simp [h5, h4 ▸ h0, h4]
      · simp [h5, h0, h4]
  · simp [h5]

/-- No parity failure is reported exactly when all three bytes pass (R93, R94). -/
theorem parityFailures_zero (p : ParitySense) (b3 b4 b5 : Byte) :
    parityFailures p b3 b4 b5 = 0#3 ↔ parOk p b3 = true ∧ parOk p b4 = true ∧ parOk p b5 = true := by
  unfold parityFailures
  cases parOk p b3 <;> cases parOk p b4 <;> cases parOk p b5 <;> decide

/-- The four ways VAL592 rejects and the one way it accepts (R92). -/
theorem judge592_cases (p : ParitySense) (n : BitVec 16) (f : Row) :
    (n = 0#16 ∧ judge592 p n f = .reject .skippedBitlen 0#3 0#8) ∨
    (n ≠ 0#16 ∧ (f.b0 = 0#8 ∨ f.b7 ≠ 0#8) ∧ judge592 p n f = .reject .structuralMismatch 0#3 0#8) ∨
    (n ≠ 0#16 ∧ f.b0 ≠ 0#8 ∧ f.b7 = 0#8 ∧ sum8 f 0 5 ≠ f.b6 ∧
      judge592 p n f = .reject .checksumMismatch (parityFailures p f.b3 f.b4 f.b5) (sum8 f 0 5)) ∨
    (n ≠ 0#16 ∧ f.b0 ≠ 0#8 ∧ f.b7 = 0#8 ∧ sum8 f 0 5 = f.b6 ∧ parityFailures p f.b3 f.b4 f.b5 ≠ 0#3 ∧
      judge592 p n f = .reject .parityMismatch (parityFailures p f.b3 f.b4 f.b5) (sum8 f 0 5)) ∨
    (n ≠ 0#16 ∧ f.b0 ≠ 0#8 ∧ f.b7 = 0#8 ∧ sum8 f 0 5 = f.b6 ∧ parityFailures p f.b3 f.b4 f.b5 = 0#3 ∧
      judge592 p n f = .accept f .parity592 (sum8 f 0 5)) := by
  unfold judge592
  by_cases hn : n = 0#16
  · simp [hn]
  · by_cases h0 : f.b0 = 0#8
    · simp [hn, h0]
    · by_cases h7 : f.b7 = 0#8
      · by_cases h6 : sum8 f 0 5 = f.b6
        · by_cases hp : parityFailures p f.b3 f.b4 f.b5 = 0#3 <;> simp [hn, h0, h7, h6, hp]
        · simp [hn, h0, h7, h6]
      · simp [hn, h7]

/-! ### The rain commands -/

/-- All that RDELTA can do (R131). -/
theorem execRdelta_cases (ia ib : ByteIndex) (inst : InstIndex) (s : State) :
    (s.rain.length ≤ inst.val ∧ execRdelta ia ib inst s = .next (raise .illegalCommand s)) ∨
    (inst.val < s.rain.length ∧ s.proto = .none ∧ execRdelta ia ib inst s = .next (raise .notValidated s)) ∨
    (inst.val < s.rain.length ∧ s.proto ≠ .none ∧ (s.proto ≠ .fiveInOne ∨ messageType s.nb.b2 ≠ 1) ∧
      execRdelta ia ib inst s = .next (raise .wrongKind s)) ∨
    (∃ e, s.rain[inst.val]? = some e ∧ s.proto = .fiveInOne ∧ messageType s.nb.b2 = 1 ∧
      execRdelta ia ib inst s =
        .next (measureRain inst (rainCounter (s.nb.get ia) (s.nb.get ib)) e s)) := by
  unfold execRdelta
  cases he : s.rain[inst.val]? with
  | none => exact .inl ⟨List.getElem?_eq_none_iff.mp he, rfl⟩
  | some e =>
    have hlt := (List.getElem?_eq_some_iff.mp he).1
    by_cases hp : s.proto = .none
    · simp [hp, hlt]
    · by_cases h5 : s.proto = .fiveInOne
      · by_cases hm : messageType s.nb.b2 = 1 <;> simp [h5, hm, hlt]
      · simp [hp, h5, hlt]

/-- The two things `measureRain` can do: set the baseline, or measure against it (R131). -/
theorem measureRain_cases (inst raw : Nat) (e : RainEntry) (s : State) :
    (e.bv = false ∧ measureRain inst raw e s =
      setStatus .ok 0#3 true 0#8 (setResults 0 raw (setRain inst ⟨true, BitVec.ofNat 14 raw⟩ s))) ∨
    (e.bv = true ∧ measureRain inst raw e s =
      setStatus .ok 0#3 false 0#8 (setResults (rainDelta raw e.bval) raw s)) := by
  unfold measureRain
  cases e.bv <;> simp

/-- All that RCLR can do (R134). -/
theorem execRclr_cases (inst : InstIndex) (s : State) :
    (s.rain.length ≤ inst.val ∧ execRclr inst s = .next (raise .illegalCommand s)) ∨
    (inst.val < s.rain.length ∧
      execRclr inst s = .next (setStatus .ok 0#3 false 0#8 (setRain inst RainEntry.clear s))) := by
  unfold execRclr
  cases he : s.rain[inst.val]? with
  | none => exact .inl ⟨List.getElem?_eq_none_iff.mp he, rfl⟩
  | some e => exact .inr ⟨(List.getElem?_eq_some_iff.mp he).1, rfl⟩

/-- All that MTYPE5 can do (R101). -/
theorem execMtype5_cases (s : State) :
    (s.proto = .none ∧ execMtype5 s = .next (raise .notValidated s)) ∨
    (s.proto ≠ .none ∧ s.proto ≠ .fiveInOne ∧ execMtype5 s = .next (raise .wrongKind s)) ∨
    (∃ code, s.proto = .fiveInOne ∧ (code = .ok ∨ code = .unknownSubtype) ∧
      (code = .ok ↔ messageType s.nb.b2 = 1 ∨ messageType s.nb.b2 = 8) ∧
      execMtype5 s = .next (setStatus code 0#3 false 0#8 (setResults (messageType s.nb.b2) 0 s))) := by
  unfold execMtype5
  by_cases hp : s.proto = .none
  · simp [hp]
  · by_cases h5 : s.proto = .fiveInOne
    · by_cases hm : messageType s.nb.b2 = 1 ∨ messageType s.nb.b2 = 8 <;> simp [h5, hm]
    · simp [hp, h5]

/-! ### The register map -/

/-- Which register each address names, by number (R42). -/
theorem regAt_spec (a : RegAddr) :
    (a.toNat = 0x00 → regAt a = .cmd) ∧ (a.toNat = 0x01 → regAt a = .status) ∧
    (a.toNat = 0x02 → regAt a = .result0) ∧ (a.toNat = 0x03 → regAt a = .result1) ∧
    (a.toNat = 0x04 → regAt a = .bitlen) ∧
    (∀ i : ByteIndex, a.toNat = 0x10 + i.val → regAt a = .frame i) ∧
    (∀ i : ByteIndex, a.toNat = 0x20 + i.val → regAt a = .nb i) ∧
    (∀ i : InstIndex, a.toNat = 0x30 + i.val → regAt a = .rbase i) ∧
    (0x05 ≤ a.toNat ∧ a.toNat ≤ 0x0F ∨ 0x19 ≤ a.toNat ∧ a.toNat ≤ 0x1F ∨
      0x29 ≤ a.toNat ∧ a.toNat ≤ 0x2F ∨ 0x40 ≤ a.toNat → regAt a = .reserved) := by
  have hn : ∀ k : Nat, k < 256 → (a = BitVec.ofNat 8 k ↔ a.toNat = k) := by
    intro k hk
    rw [← BitVec.toNat_inj, BitVec.toNat_ofNat]
    omega
  unfold regAt
  simp only [hn _ (by decide : 0 < 256), hn _ (by decide : 1 < 256), hn _ (by decide : 2 < 256),
    hn _ (by decide : 3 < 256), hn _ (by decide : 4 < 256)]
  refine ⟨?_, ?_, ?_, ?_, ?_, ?_, ?_, ?_, ?_⟩
  · intro h; simp [h]
  · intro h; simp [h]
  · intro h; simp [h]
  · intro h; simp [h]
  · intro h; simp [h]
  · intro i h
    have := i.isLt
    rw [if_neg (by omega), if_neg (by omega), if_neg (by omega), if_neg (by omega), if_neg (by omega),
      dif_pos (by omega)]
    simp [h]
  · intro i h
    have := i.isLt
    rw [if_neg (by omega), if_neg (by omega), if_neg (by omega), if_neg (by omega), if_neg (by omega),
      dif_neg (by omega), dif_pos (by omega)]
    simp [h]
  · intro i h
    have := i.isLt
    rw [if_neg (by omega), if_neg (by omega), if_neg (by omega), if_neg (by omega), if_neg (by omega),
      dif_neg (by omega), dif_neg (by omega), dif_pos (by omega)]
    simp [h]
  · intro h
    rw [if_neg (by omega), if_neg (by omega), if_neg (by omega), if_neg (by omega), if_neg (by omega),
      dif_neg (by omega), dif_neg (by omega), dif_neg (by omega)]

/-! ### The step -/

/-- Every command answers a next state (R150). -/
theorem exec_next (i : Instr) (s : State) : ∃ t, exec i s = .next t := by
  cases i with
  | nop => exact ⟨_, rfl⟩
  | val5 => exact ⟨_, rfl⟩
  | valrg => exact ⟨_, rfl⟩
  | valth => exact ⟨_, rfl⟩
  | val592 => exact ⟨_, rfl⟩
  | mtype5 =>
    obtain ⟨_, h⟩ | ⟨_, _, h⟩ | ⟨_, _, _, _, h⟩ := execMtype5_cases s <;> exact ⟨_, h⟩
  | temp5 ia ib => exact ⟨_, rfl⟩
  | tempth ia ib => exact ⟨_, rfl⟩
  | temp592 ia ib => exact ⟨_, rfl⟩
  | wspd ia ib => exact ⟨_, rfl⟩
  | wdir ia => exact ⟨_, rfl⟩
  | hum ia => exact ⟨_, rfl⟩
  | rain14 ia ib => exact ⟨_, rfl⟩
  | rgtotal ia ib => exact ⟨_, rfl⟩
  | rdelta ia ib inst =>
    obtain ⟨_, h⟩ | ⟨_, _, h⟩ | ⟨_, _, _, h⟩ | ⟨_, _, _, _, h⟩ := execRdelta_cases ia ib inst s <;>
      exact ⟨_, h⟩
  | rclr inst => obtain ⟨_, h⟩ | ⟨_, h⟩ := execRclr_cases inst s <;> exact ⟨_, h⟩

/-- All that a command can do, one case per family: NOP keeps the state, a validator concludes, a field
command runs its template, and MTYPE5, RDELTA and RCLR answer as their own lemmas say. -/
theorem exec_cases {i : Instr} {s t : State} (h : exec i s = .next t) :
    (i = .nop ∧ t = s) ∨
    (i = .val5 ∧ t = conclude (judge5 s.frame) s) ∨
    (i = .valrg ∧ t = conclude (judgeRg s.frame) s) ∨
    (i = .valth ∧ t = conclude (judgeTh s.frame) s) ∨
    (i = .val592 ∧ t = conclude (judge592 s.paritySense s.bitlen s.frame) s) ∨
    (i = .mtype5 ∧ execMtype5 s = .next t) ∨
    (isFieldCommand i = true ∧ ∃ r0 r1, t = fieldCommand r0 r1 s) ∨
    (∃ ia ib inst, i = .rdelta ia ib inst ∧ execRdelta ia ib inst s = .next t) ∨
    (∃ inst, i = .rclr inst ∧ execRclr inst s = .next t) := by
  cases i with
  | nop => cases h; exact .inl ⟨rfl, rfl⟩
  | val5 => cases h; exact .inr (.inl ⟨rfl, rfl⟩)
  | valrg => cases h; exact .inr (.inr (.inl ⟨rfl, rfl⟩))
  | valth => cases h; exact .inr (.inr (.inr (.inl ⟨rfl, rfl⟩)))
  | val592 => cases h; exact .inr (.inr (.inr (.inr (.inl ⟨rfl, rfl⟩))))
  | mtype5 => exact .inr (.inr (.inr (.inr (.inr (.inl ⟨rfl, h⟩)))))
  | temp5 ia ib | tempth ia ib | temp592 ia ib | wspd ia ib | wdir ia | hum ia | rain14 ia ib
  | rgtotal ia ib =>
    cases h
    exact .inr (.inr (.inr (.inr (.inr (.inr (.inl ⟨rfl, _, _, rfl⟩))))))
  | rdelta ia ib inst =>
    exact .inr (.inr (.inr (.inr (.inr (.inr (.inr (.inl ⟨ia, ib, inst, rfl, h⟩)))))))
  | rclr inst =>
    exact .inr (.inr (.inr (.inr (.inr (.inr (.inr (.inr ⟨inst, rfl, h⟩)))))))

theorem writeCmd_ok {v : Word} {s : State} {i : Instr} (h : decode s.numRainInst v = .ok i) :
    writeCmd v s = exec i { s with cmd := v } := by
  simp [writeCmd, h]

theorem writeCmd_error {v : Word} {s : State} {e : IllegalWord} (h : decode s.numRainInst v = .error e) :
    writeCmd v s = .next (raise .illegalCommand { s with cmd := v }) := by
  simp [writeCmd, h]

/-- Every step is one of these: the block waits, serves a read, runs a legal command, reports an illegal
word, stores to FRAME or BITLEN, ignores a write, or resets. -/
theorem step_cases {s t : State} (h : step s = .next t) :
    (s.pending = [] ∧ t = s) ∨
    (∃ a rest, s.pending = .read a :: rest ∧
      t = { s with pending := rest, readData := some (hostRead a s) }) ∨
    (∃ v rest i, s.pending = .write 0x00#8 v :: rest ∧ decode s.numRainInst v = .ok i ∧
      exec i { s with pending := rest, readData := none, cmd := v } = .next t) ∨
    (∃ v rest e, s.pending = .write 0x00#8 v :: rest ∧ decode s.numRainInst v = .error e ∧
      t = raise .illegalCommand { s with pending := rest, readData := none, cmd := v }) ∨
    (∃ a i v rest, s.pending = .write a v :: rest ∧ regAt a = .frame i ∧
      t = writeFrame i v { s with pending := rest, readData := none }) ∨
    (∃ a v rest, s.pending = .write a v :: rest ∧ regAt a = .bitlen ∧
      t = writeBitlen v { s with pending := rest, readData := none }) ∨
    (∃ a v rest, s.pending = .write a v :: rest ∧ regAt a ≠ .cmd ∧ regAt a ≠ .bitlen ∧
      (∀ i, regAt a ≠ .frame i) ∧ t = { s with pending := rest, readData := none }) ∨
    (∃ rest, s.pending = .reset :: rest ∧ t = State.powerOn s.paritySense s.numRainInst rest) := by
  unfold step at h
  cases hp : s.pending with
  | nil =>
    simp only [hp] at h
    cases h
    exact .inl ⟨rfl, rfl⟩
  | cons e rest =>
    simp only [hp] at h
    cases e with
    | read a =>
      simp only [perform, Host.Outcome.next.injEq] at h
      refine .inr (.inl ⟨a, rest, rfl, ?_⟩)
      rw [← h]
      have : hostRead a { s with pending := rest } = hostRead a s := by
        simp only [hostRead]; cases regAt a <;> rfl
      rw [this]
    | reset =>
      simp only [perform, Host.Outcome.next.injEq] at h
      exact .inr (.inr (.inr (.inr (.inr (.inr (.inr ⟨rest, rfl, h.symm⟩))))))
    | write a v =>
      simp only [perform, hostWrite] at h
      cases ha : regAt a with
      | cmd =>
        simp only [ha] at h
        have hz : a = 0x00#8 := by
          unfold regAt at ha
          split at ha
          · assumption
          · repeat' split at ha
            all_goals cases ha
        subst hz
        cases hd : decode s.numRainInst v with
        | ok i =>
          have := writeCmd_ok (s := { s with pending := rest, readData := none }) (v := v) (i := i) hd
          rw [this] at h
          exact .inr (.inr (.inl ⟨v, rest, i, rfl, hd, h⟩))
        | error e =>
          have := writeCmd_error (s := { s with pending := rest, readData := none }) (v := v) (e := e) hd
          rw [this, Host.Outcome.next.injEq] at h
          exact .inr (.inr (.inr (.inl ⟨v, rest, e, rfl, hd, h.symm⟩)))
      | frame i =>
        simp only [ha, Host.Outcome.next.injEq] at h
        exact .inr (.inr (.inr (.inr (.inl ⟨a, i, v, rest, rfl, ha, h.symm⟩))))
      | bitlen =>
        simp only [ha, Host.Outcome.next.injEq] at h
        exact .inr (.inr (.inr (.inr (.inr (.inl ⟨a, v, rest, rfl, ha, h.symm⟩)))))
      | status | result0 | result1 | reserved =>
        simp only [ha, Host.Outcome.next.injEq] at h
        exact .inr (.inr (.inr (.inr (.inr (.inr (.inl
          ⟨a, v, rest, rfl, by simp [ha], by simp [ha], by simp [ha], h.symm⟩))))))
      | nb i | rbase i =>
        simp only [ha, Host.Outcome.next.injEq] at h
        exact .inr (.inr (.inr (.inr (.inr (.inr (.inl
          ⟨a, v, rest, rfl, by simp [ha], by simp [ha], by simp [ha], h.symm⟩))))))

end Sys2Proof.Machine
end

