-- ==== Sys2Proof/Laws/PerInstr.lean ====
section
/-! SUPPORT. The per-instruction family `EncodedOpcode`: the OPC field of a command's word is the opcode
R63 gives it, and RES is 0. -/

namespace Sys2Proof.Laws.EncodedOpcode

/-- The word of `i` has the opcode of `i` in bits 7:0 and zeros in bits 31:20. -/
def Statement (i : Instr) : Prop := opcField (encode i) = opcodeOf i ∧ resField (encode i) = 0

/-- The statement for any command, from what it encodes to. -/
theorem of_enc {i : Instr} {ia ib inst : Nat} (h : encode i = enc (opcodeOf i) ia ib inst)
    (ho : opcodeOf i < 2 ^ 8) (ha : ia < 2 ^ 4) (hb : ib < 2 ^ 4) (hi : inst < 2 ^ 4) : Statement i := by
  obtain ⟨h1, -, -, -, h2⟩ := enc_fields ho ha hb hi
  exact ⟨h ▸ h1, h ▸ h2⟩

theorem byte_lt (i : ByteIndex) : i.val < 2 ^ 4 := by have := i.isLt; omega

theorem nop : Statement .nop := ⟨rfl, rfl⟩
theorem val5 : Statement .val5 := ⟨rfl, rfl⟩
theorem valrg : Statement .valrg := ⟨rfl, rfl⟩
theorem valth : Statement .valth := ⟨rfl, rfl⟩
theorem val592 : Statement .val592 := ⟨rfl, rfl⟩
theorem mtype5 : Statement .mtype5 := ⟨rfl, rfl⟩
theorem temp5 (ia ib : ByteIndex) : Statement (.temp5 ia ib) :=
  of_enc (ia := ia.val) (ib := ib.val) (inst := 0) rfl (Nat.le_of_ble_eq_true rfl) (byte_lt ia) (byte_lt ib) (Nat.le_of_ble_eq_true rfl)
theorem tempth (ia ib : ByteIndex) : Statement (.tempth ia ib) :=
  of_enc (ia := ia.val) (ib := ib.val) (inst := 0) rfl (Nat.le_of_ble_eq_true rfl) (byte_lt ia) (byte_lt ib) (Nat.le_of_ble_eq_true rfl)
theorem temp592 (ia ib : ByteIndex) : Statement (.temp592 ia ib) :=
  of_enc (ia := ia.val) (ib := ib.val) (inst := 0) rfl (Nat.le_of_ble_eq_true rfl) (byte_lt ia) (byte_lt ib) (Nat.le_of_ble_eq_true rfl)
theorem wspd (ia ib : ByteIndex) : Statement (.wspd ia ib) :=
  of_enc (ia := ia.val) (ib := ib.val) (inst := 0) rfl (Nat.le_of_ble_eq_true rfl) (byte_lt ia) (byte_lt ib) (Nat.le_of_ble_eq_true rfl)
theorem wdir (ia : ByteIndex) : Statement (.wdir ia) :=
  of_enc (ia := ia.val) (ib := 0) (inst := 0) rfl (Nat.le_of_ble_eq_true rfl) (byte_lt ia) (Nat.le_of_ble_eq_true rfl) (Nat.le_of_ble_eq_true rfl)
theorem hum (ia : ByteIndex) : Statement (.hum ia) :=
  of_enc (ia := ia.val) (ib := 0) (inst := 0) rfl (Nat.le_of_ble_eq_true rfl) (byte_lt ia) (Nat.le_of_ble_eq_true rfl) (Nat.le_of_ble_eq_true rfl)
theorem rain14 (ia ib : ByteIndex) : Statement (.rain14 ia ib) :=
  of_enc (ia := ia.val) (ib := ib.val) (inst := 0) rfl (Nat.le_of_ble_eq_true rfl) (byte_lt ia) (byte_lt ib) (Nat.le_of_ble_eq_true rfl)
theorem rgtotal (ia ib : ByteIndex) : Statement (.rgtotal ia ib) :=
  of_enc (ia := ia.val) (ib := ib.val) (inst := 0) rfl (Nat.le_of_ble_eq_true rfl) (byte_lt ia) (byte_lt ib) (Nat.le_of_ble_eq_true rfl)
theorem rdelta (ia ib : ByteIndex) (inst : InstIndex) : Statement (.rdelta ia ib inst) :=
  of_enc (ia := ia.val) (ib := ib.val) (inst := inst.val) rfl (Nat.le_of_ble_eq_true rfl) (byte_lt ia) (byte_lt ib) inst.isLt
theorem rclr (inst : InstIndex) : Statement (.rclr inst) :=
  of_enc (ia := 0) (ib := 0) (inst := inst.val) rfl (Nat.le_of_ble_eq_true rfl) (Nat.le_of_ble_eq_true rfl) (Nat.le_of_ble_eq_true rfl) inst.isLt

end Sys2Proof.Laws.EncodedOpcode
end

