-- ==== Sys2Proof/Tests/Slice0.lean ====
section
/-! SUPPORT. The model's own tests: the well-formedness checks, one written-out word per command, one or two
steps per command with results from spec/95_test_vectors.md (named in each comment), and for every
statement with hypotheses a state and operands that meet them. -/

namespace Sys2Proof.Tests

open Sys2Proof Sys2Proof.Machine

/-! ### Helpers -/

/-- The next state of an answer, if it is one. -/
def nextOf : Result → Option State
  | .next t => some t
  | .fault _ => none
  | .refused _ => none

/-- What a command leaves: STATUS, RESULT0, RESULT1. -/
def outcome (i : Instr) (s : State) : Option (Word × Word × Word) :=
  (nextOf (exec i s)).map fun t => (statusWord t, t.result0, t.result1)

/-- After reset, with a row loaded. -/
def loaded (f : Row) : State := { State.reset with frame := f }

/-- After reset, with a validated normalised row. -/
def validated (p : Proto) (r : Row) : State := { State.reset with nb := r, proto := p }

/-- The rows 5A, its normalised copy, LO's normalised copy, 592G, and the row of P1. -/
def row5A : Row := ⟨0xB5, 0xC3, 0x8E, 0xFC, 0xA7, 0xFE, 0xD3, 0x80, 0x00⟩
def nb5A : Row := ⟨0x4A, 0x3C, 0x71, 0x03, 0x58, 0x01, 0x2C, 0x7F, 0x00⟩
def nbLO : Row := ⟨0x4A, 0x3C, 0x71, 0x03, 0x58, 0x00, 0x03, 0x55, 0x00⟩
def row592 : Row := ⟨0x4C, 0x5A, 0x44, 0x2D, 0x09, 0x36, 0x56, 0x00, 0x00⟩
def rowTh : Row := ⟨0x00, 0x01, 0xF4, 0x2D, 0x22, 0x00, 0x00, 0x00, 0x00⟩

/-! ### Well-formedness: each check refuses an ill-formed term -/

theorem test_wellFormed_rdelta_inst : (Instr.rdelta 5 6 1).wellFormed 1 = false := by decide
theorem test_wellFormed_rclr_inst : (Instr.rclr 3).wellFormed 3 = false := by decide
theorem test_wellFormed_accepts_last_inst :
    (Instr.rdelta 8 8 15).wellFormed 16 = true ∧ (Instr.rclr 0).wellFormed 1 = true := by decide

/-! ### Decoding: words written out from R66, and illegal words of V-ENC -/

theorem test_decode_nop : decode 1 0b00000000000000000000000000000000#32 = .ok .nop := by rfl
theorem test_decode_val5 : decode 1 0b00000000000000000000000000000001#32 = .ok .val5 := by rfl
theorem test_decode_valrg : decode 1 0b00000000000000000000000000000010#32 = .ok .valrg := by rfl
theorem test_decode_valth : decode 1 0b00000000000000000000000000000011#32 = .ok .valth := by rfl
theorem test_decode_val592 : decode 1 0b00000000000000000000000000000100#32 = .ok .val592 := by rfl
theorem test_decode_mtype5 : decode 1 0b00000000000000000000000000010000#32 = .ok .mtype5 := by rfl
theorem test_decode_temp5 : decode 1 0b00000000000000000101010000010001#32 = .ok (.temp5 4 5) := by rfl
theorem test_decode_tempth : decode 1 0b00000000000000000010000100010010#32 = .ok (.tempth 1 2) := by rfl
theorem test_decode_temp592 : decode 1 0b00000000000000000101010000010011#32 = .ok (.temp592 4 5) := by rfl
theorem test_decode_wspd : decode 1 0b00000000000000001000100000010100#32 = .ok (.wspd 8 8) := by rfl
theorem test_decode_wdir : decode 1 0b00000000000000000000100000010101#32 = .ok (.wdir 8) := by rfl
theorem test_decode_hum : decode 1 0b00000000000000000000011000010110#32 = .ok (.hum 6) := by rfl
theorem test_decode_rain14 : decode 1 0b00000000000000000110010100010111#32 = .ok (.rain14 5 6) := by rfl
theorem test_decode_rgtotal : decode 1 0b00000000000000000010000100011000#32 = .ok (.rgtotal 1 2) := by rfl
theorem test_decode_rdelta : decode 16 0b00000000000011110110010100100000#32 = .ok (.rdelta 5 6 15) := by rfl
theorem test_decode_rclr : decode 4 0b00000000000000110000000000100001#32 = .ok (.rclr 3) := by rfl
theorem test_decode_illegal :
    decode 1 0x00000100#32 = .error .nopWithFields ∧ decode 1 0x00000005#32 = .error .unallocatedOpcode ∧
    decode 1 0x80000001#32 = .error .reservedBits ∧ decode 1 0x00001116#32 = .error .unusedField ∧
    decode 1 0x00000914#32 = .error .byteIndex ∧ decode 1 0x00016520#32 = .error .rainInstance := by
  refine ⟨?_, ?_, ?_, ?_, ?_, ?_⟩ <;> rfl

/-- R70's examples. -/
theorem test_render : renderCommand (.rdelta 5 6 0) = "RDELTA 5, 6, 0" ∧ renderCommand .val5 = "VAL5" := by
  decide

/-! ### Control and validators -/

/-- V-ENC, P5: NOP keeps STATUS. -/
theorem test_nop : outcome .nop { State.reset with code := .illegalCommand } = some (0x00000006, 0, 0) := by
  decide

/-- V-VAL5, 5A. -/
theorem test_val5_5A : (nextOf (exec .val5 (loaded row5A))).map (fun t => (t.nb, statusWord t)) =
    some (nb5A, 0x007F0300) := by decide
/-- V-VAL5, 5H8 and 5D: the byte-0 test comes before the repair, and the repair through byte 8. -/
theorem test_val5_repair : outcome .val5 (loaded ⟨0x00, 0xC3, 0x8E, 0xFC, 0xA7, 0xFE, 0xD3, 0x80, 0x80⟩) =
      some (0x00000003, 0, 0) ∧
    (nextOf (exec .val5 (loaded ⟨0xB5, 0xC3, 0x8E, 0xFC, 0xA7, 0xFE, 0xD3, 0x00, 0x80⟩))).map
      (fun t => (t.nb, statusWord t)) =
      some (⟨0xCA, 0x3C, 0x71, 0x03, 0x58, 0x01, 0x2C, 0xFF, 0x80⟩, 0x00FF0300) := by decide

/-- V-VALRG: an accepted frame, and W6. -/
theorem test_valrg_accept : outcome .valrg (loaded ⟨0xFF, 0xFF, 0xFF, 0x00, 0x00, 0xFF, 0xFF, 0xFF, 0xFF⟩) =
    some (0x00000500, 0, 0) := by decide
theorem test_valrg_reject : outcome .valrg (loaded ⟨0x10, 0x00, 0x0A, 0x00, 0x00, 0x00, 0x00, 0x00, 0x00⟩) =
    some (0x00000003, 0, 0) := by decide

/-- V-VALTH: the P1 frame, and the degenerate sum. -/
theorem test_valth_accept : outcome .valth (loaded rowTh) = some (0x00220700, 0, 0) := by decide
theorem test_valth_zero_sum : outcome .valth (loaded ⟨0x80, 0x80, 0, 0, 0, 0, 0, 0, 0⟩) =
    some (0x00000001, 0, 0) := by decide

/-- V-VAL592: checksum beats parity with PARFAIL reported; and 592G under TOTAL_ODD has PARFAIL 7. -/
theorem test_val592_checksum_first : outcome .val592 { State.reset with
    bitlen := 56, frame := ⟨0x4C, 0x5A, 0x44, 0x2D, 0x89, 0x36, 0x57, 0x00, 0x00⟩ } =
    some (0x00D60021, 0, 0) := by decide
theorem test_val592_senses : outcome .val592 { State.reset with bitlen := 56, frame := row592 } =
      some (0x00560900, 0, 0) ∧
    outcome .val592 { State.reset with bitlen := 56, frame := row592, paritySense := .totalOdd } =
      some (0x00560072, 0, 0) := by decide

/-! ### Field commands -/

/-- V-MTYPE5: type 1, and an unknown type. -/
theorem test_mtype5 : outcome .mtype5 (validated .fiveInOne nb5A) = some (0x00000300, 1, 0) := by decide
theorem test_mtype5_unknown : outcome .mtype5 (validated .fiveInOne { nb5A with b2 := 0x73 }) =
    some (0x00000304, 3, 0) := by decide

/-- V-TEMP5: FF FF and 00 00. -/
theorem test_temp5_masks : outcome (.temp5 4 5) (validated .fiveInOne { nb5A with b4 := 0xFF, b5 := 0xFF }) =
    some (0x00000300, 1647, 2047) := by decide
theorem test_temp5_negative : outcome (.temp5 4 5) (validated .fiveInOne { nb5A with b4 := 0, b5 := 0 }) =
    some (0x00000300, 0xFFFFFE70, 0) := by decide

/-- V-TEMPTH: 0F 9C and F1 23. -/
theorem test_tempth_negative : outcome (.tempth 1 2) (validated .basicTh { rowTh with b1 := 0x0F, b2 := 0x9C }) =
    some (0x00000700, 0xFFFFFF9C, 0xF9C) := by decide
theorem test_tempth_high_nibble : outcome (.tempth 1 2) (validated .basicTh { rowTh with b1 := 0xF1, b2 := 0x23 }) =
    some (0x00000700, 291, 0x123) := by decide

/-- V-TEMP592: FF FF and 00 00. -/
theorem test_temp592_masks : outcome (.temp592 4 5) (validated .parity592 { row592 with b4 := 0xFF, b5 := 0xFF }) =
    some (0x00000900, 15383, 140047) := by decide
theorem test_temp592_negative : outcome (.temp592 4 5) (validated .parity592 { row592 with b4 := 0, b5 := 0 }) =
    some (0x00000900, 0xFFFFFC18, 0xFFFFE318) := by decide

/-- V-WSPD: 03 58 and E0 8F. -/
theorem test_wspd : outcome (.wspd 3 4) (validated .fiveInOne nb5A) = some (0x00000300, 29, 0) := by decide
theorem test_wspd_masks : outcome (.wspd 3 4) (validated .fiveInOne { nb5A with b3 := 0xE0, b4 := 0x8F }) =
    some (0x00000300, 0, 0) := by decide

/-- V-WDIR: 0x58, and index 0 (W2). -/
theorem test_wdir : outcome (.wdir 4) (validated .fiveInOne nb5A) = some (0x00000300, 0x627, 8) := by decide
theorem test_wdir_first : outcome (.wdir 8) (validated .fiveInOne nb5A) = some (0x00000300, 3375, 0) := by decide

/-- V-HUM: E3, and NOT_VALIDATED of V-FIELD-REFUSE. -/
theorem test_hum : outcome (.hum 3) (validated .basicTh { rowTh with b3 := 0xE3 }) =
    some (0x00000700, 99, 0) := by decide
theorem test_hum_refused : outcome (.hum 3) (validated .none rowTh) = some (0x00000005, 0, 0) := by decide

/-- V-RAIN14: 01 2C, and 80 80. -/
theorem test_rain14 : outcome (.rain14 5 6) (validated .fiveInOne nb5A) = some (0x00000300, 172, 0) := by decide
theorem test_rain14_masks : outcome (.rain14 5 6) (validated .fiveInOne { nb5A with b5 := 0x80, b6 := 0x80 }) =
    some (0x00000300, 0, 0) := by decide

/-- V-RGTOTAL: 01 0A, and 10 0B. -/
theorem test_rgtotal : outcome (.rgtotal 1 2) (validated .rainGauge ⟨0x10, 0x01, 0x0A, 0, 0, 0, 0, 0, 0⟩) =
    some (0x00000500, 266, 0) := by decide
theorem test_rgtotal_high_nibble : outcome (.rgtotal 1 2) (validated .rainGauge ⟨0x10, 0x10, 0x0B, 0, 0, 0, 0, 0, 0⟩) =
    some (0x00000500, 11, 0) := by decide

/-! ### Rain -/

/-- V-RDELTA: the first frame sets the baseline; the wrap of LO against 16380. -/
theorem test_rdelta_first : (nextOf (exec (.rdelta 5 6 0) (validated .fiveInOne nb5A))).map
    (fun t => (statusWord t, t.result0, t.result1, hostRead 0x30 t)) =
    some (0x00000380, 0, 172, 0x000100AC) := by decide
theorem test_rdelta_wrap : outcome (.rdelta 5 6 0) { validated .fiveInOne nbLO with rain := [⟨true, 16380⟩] } =
    some (0x00000300, 7, 3) := by decide

/-- V-RCLR, and P7's RCLR 1 beside a set entry 0. -/
theorem test_rclr : (nextOf (exec (.rclr 1) { State.reset with rain := [⟨true, 3⟩, ⟨true, 16380⟩] })).map
    (fun t => (hostRead 0x30 t, hostRead 0x31 t)) = some (0x00010003, 0) := by decide

/-! ### The host's side -/

/-- V-REG: the upper bits of a FRAME write are dropped; a reserved write is ignored. -/
theorem test_write_frame : (nextOf (hostWrite 0x10 0x1234 State.reset)).map (hostRead 0x10) = some 0x34 := by decide
theorem test_write_reserved : nextOf (hostWrite 0x05 0xFFFFFFFF State.reset) = some State.reset := by decide

/-- V-REG: CMD holds an illegal word too. -/
theorem test_illegal_word : (nextOf (step (State.reset.withFetchWord 32 0x05))).map
    (fun t => (hostRead 0x00 t, hostRead 0x01 t)) = some (0x05, 0x06) := by decide

/-- A placed word runs as the first command after reset: V-RESET, VALTH rejects the empty row. -/
theorem test_first_command : (nextOf (step (State.reset.withFetchWord 32 0x03))).map statusWord =
    some 0x00000001 := by decide

/-! ### Witnesses: states and operands that meet the hypotheses of the statements -/

/-- The host's side of a state. -/
def issuing (l : List HostEvent) (s : State) : State := { s with pending := l }

theorem witness_DecodeInvertsEncode : (Instr.rdelta 8 8 15).wellFormed 16 = true := by decide

theorem witness_EncodeInvertsDecode : decode 16 0x000F8820#32 = .ok (.rdelta 8 8 15) := by rfl

theorem witness_DecodeAcceptsExactlyLegalWords :
    legalWord 16 0x000F8820#32 = true ∧ legalWord 15 0x000F8820#32 = false ∧ legalWord 0 0x00000000#32 = true ∧
    legalWord 1 0x00008818#32 = true ∧ legalWord 1 0x00000816#32 = true ∧ legalWord 1 0x00000021#32 = true ∧
    legalWord 1 0x00000010#32 = true ∧ legalWord 1 0x00009818#32 = false := by decide

theorem witness_PatternTableNamesDecodedCommand :
    decode 1 0x00008814#32 = .ok (.wspd 8 8) ∧
    ("RDELTA", 0x00000020#32, 0xFFF000FF#32) ∈ patternTable ∧ 0x00008820#32 &&& 0xFFF000FF#32 = 0x00000020#32 ∧
    (0x00008820#32).toNat / 2 ^ 8 % 16 ≤ 8 ∧ (0x00008820#32).toNat / 2 ^ 12 % 16 ≤ 8 ∧
    (0x00008820#32).toNat / 2 ^ 16 % 16 < 1 := by
  refine ⟨by rfl, ?_⟩
  decide

theorem witness_StepRunsDecodedCommand :
    (State.reset.withFetchWord 32 0x8820).pending = [.write 0x00#8 0x00008820#32] ∧
    decode (State.reset.withFetchWord 32 0x8820).numRainInst 0x00008820#32 = .ok (.rdelta 8 8 0) :=
  ⟨by decide, by rfl⟩

theorem witness_PlacedCommandRunsNext : (Instr.rdelta 8 8 0).wellFormed State.reset.numRainInst = true := by decide

theorem witness_IllegalWordSetsStatusOnly :
    (issuing [.write 0x00#8 0x00016520#32] State.reset).pending = .write 0x00#8 0x00016520#32 :: [] ∧
    legalWord (issuing [.write 0x00#8 0x00016520#32] State.reset).numRainInst 0x00016520#32 = false := by decide

theorem witness_IdleBlockWaits : State.reset.pending = [] := by decide

/-- Each clause of the read map at the ends of its range. -/
theorem witness_ReadServesRegisterMap :
    (issuing [.read 0xFF#8] State.reset).pending = .read 0xFF#8 :: [] ∧
    (0x04#8).toNat = 0x04 ∧ (0x10#8).toNat = 0x10 + (0 : ByteIndex).val ∧ (0x18#8).toNat = 0x10 + (8 : ByteIndex).val ∧
    (0x20#8).toNat = 0x20 + (0 : ByteIndex).val ∧ (0x28#8).toNat = 0x20 + (8 : ByteIndex).val ∧
    (0x30#8).toNat = 0x30 + (0 : InstIndex).val ∧ State.reset.rain[(0 : InstIndex).val]? = some ⟨false, 0⟩ ∧
    (0x3F#8).toNat = 0x30 + (15 : InstIndex).val ∧ State.reset.numRainInst ≤ (15 : InstIndex).val ∧
    0x40 ≤ (0xFF#8).toNat := by decide

/-- No address falls under two clauses of the read map: the register named by each address at a border. -/
theorem test_regAt_borders :
    [0x00#8, 0x01#8, 0x02#8, 0x03#8, 0x04#8, 0x05#8, 0x0F#8, 0x10#8, 0x18#8, 0x19#8, 0x1F#8, 0x20#8, 0x28#8, 0x29#8,
      0x2F#8, 0x30#8, 0x3F#8, 0x40#8, 0xFF#8].map regAt =
    [.cmd, .status, .result0, .result1, .bitlen, .reserved, .reserved, .frame 0, .frame 8, .reserved, .reserved, .nb 0,
      .nb 8, .reserved, .reserved, .rbase 0, .rbase 15, .reserved, .reserved] := by decide

theorem witness_WriteServesRegisterMap :
    (issuing [.write 0x18#8 0x1FF#32] State.reset).pending = .write 0x18#8 0x1FF#32 :: [] ∧
    (0x18#8).toNat = 0x10 + (8 : ByteIndex).val ∧ (0x04#8).toNat = 0x04 ∧
    (1 ≤ (0x01#8).toNat ∧ (0x01#8).toNat ≤ 3) ∧ (0x20 ≤ (0x28#8).toNat ∧ (0x28#8).toNat ≤ 0x28) ∧
    (0x30 ≤ (0x3F#8).toNat ∧ (0x3F#8).toNat ≤ 0x3F) := by decide

theorem witness_ReservedAddressReadsZeroAndIgnoresWrites :
    (0x05 ≤ (0x0F#8).toNat ∧ (0x0F#8).toNat ≤ 0x0F) ∧ (0x19 ≤ (0x19#8).toNat ∧ (0x1F#8).toNat ≤ 0x1F) ∧
    (0x29 ≤ (0x29#8).toNat ∧ (0x2F#8).toNat ≤ 0x2F) ∧ 0x40 ≤ (0x40#8).toNat ∧
    (issuing [.read 0x40#8] State.reset).pending = .read 0x40#8 :: [] ∧
    (issuing [.write 0x40#8 1#32] State.reset).pending = .write 0x40#8 1#32 :: [] := by decide

theorem witness_FrameAndBitlenReadBackLowBits :
    (0x18#8).toNat = 0x10 + (8 : ByteIndex).val ∧
    (issuing [.write 0x18#8 0x1FF#32, .read 0x18#8] State.reset).pending =
      .write 0x18#8 0x1FF#32 :: .read 0x18#8 :: [] ∧
    (issuing [.write 0x04#8 0x10038#32, .read 0x04#8] State.reset).pending =
      .write 0x04#8 0x10038#32 :: .read 0x04#8 :: [] := by decide

theorem witness_LdrowLoadsRowAndSetblLoadsBitlen :
    (State.reset.issue [.ldrow row5A]).pending = (HostLine.ldrow row5A).expand ++ [] ∧
    (State.reset.issue [.setbl 0x38]).pending = (HostLine.setbl 0x38).expand ++ [] := by decide

theorem witness_RowWriteInvalidatesDecode :
    let s := issuing [.write 0x18#8 0#32, .write 0x00#8 0x00000415#32] (validated .fiveInOne nb5A)
    (0x10 ≤ (0x18#8).toNat ∧ (0x18#8).toNat ≤ 0x18) ∧
    s.pending = .write 0x18#8 0#32 :: .write 0x00#8 0x00000415#32 :: [] ∧
    decode s.numRainInst 0x00000415#32 = .ok (.wdir 4) ∧ isFieldCommand (.wdir 4) = true :=
  ⟨by decide, by decide, by rfl, by decide⟩

theorem witness_ResetEventRestoresResetValues :
    (issuing [.reset] (validated .fiveInOne nb5A)).pending = .reset :: [] := by decide

/-- A state with a validated 592 frame that meets the three invariants, and a step from it. -/
def inv592 : State :=
  issuing [.write 0x00#8 0x00005413#32]
    { State.reset with frame := row592, nb := row592, bitlen := 1, proto := .parity592, csum := 0x56 }

theorem witness_StepKeepsAcceptedFrame :
    inv592.HoldsAcceptedFrame ∧ ∃ t, step inv592 = .next t :=
  ⟨⟨by decide, by decide, by decide, by decide, by decide, by decide, by decide, by decide⟩, ⟨_, rfl⟩⟩

theorem witness_StepKeepsStatusFits : inv592.StatusFits ∧ ∃ t, step inv592 = .next t :=
  ⟨⟨by decide, by decide, by decide, by decide, by decide⟩, ⟨_, rfl⟩⟩

theorem witness_StepKeepsRainFileFits : inv592.RainFileFits ∧ ∃ t, step inv592 = .next t :=
  ⟨⟨by decide, by decide, by decide⟩, ⟨_, rfl⟩⟩

/-- A rejected frame's status meets the status invariant with every clause in use. -/
theorem witness_StatusFits_rejected :
    ({ State.reset with code := .parityMismatch, parfail := 2, csum := 0xD6 } : State).StatusFits ∧
    ({ State.reset with code := .ok, blset := true, proto := .fiveInOne } : State).StatusFits :=
  ⟨⟨by decide, by decide, by decide, by decide, by decide⟩, ⟨by decide, by decide, by decide, by decide, by decide⟩⟩

theorem witness_CommandsKeepHostRegistersAndParameters :
    ∃ t, exec (.rdelta 5 6 0) (validated .fiveInOne nb5A) = .next t := ⟨_, rfl⟩

theorem witness_FrameWrittenOnlyByHost :
    ∃ t, step (issuing [.write 0x18#8 1#32] State.reset) = .next t ∧ t.frame ≠ State.reset.frame := by
  refine ⟨_, rfl, ?_⟩
  decide

theorem witness_NbWrittenOnlyOnAcceptance :
    ∃ t, step (issuing [.write 0x00#8 1#32] (loaded row5A)) = .next t ∧ t.nb ≠ Row.zero := by
  refine ⟨_, rfl, ?_⟩
  decide

theorem witness_ProtoWrittenOnlyByNamedWriters :
    ∃ t, step (issuing [.write 0x00#8 1#32] (loaded row5A)) = .next t ∧ t.proto = .fiveInOne := by
  refine ⟨_, rfl, ?_⟩
  decide

theorem witness_SetBaselineStaysUntilClearedOrReset :
    let s := { issuing [.write 0x00#8 0x00008820#32] (validated .fiveInOne nb5A) with rain := [⟨true, 16383⟩] }
    (∃ t, step s = .next t) ∧ s.rain[(0 : InstIndex).val]? = some ⟨true, 16383⟩ := ⟨⟨_, rfl⟩, by decide⟩

theorem witness_ResultsWrittenOnlyOnSuccess :
    ∃ t, exec .mtype5 (validated .fiveInOne { nb5A with b2 := 0x73 }) = .next t ∧ t.code = .unknownSubtype ∧
      t.result0 ≠ 0 := by
  refine ⟨_, rfl, ?_⟩
  decide

theorem witness_StatusFieldsZeroUnlessNamed :
    (∃ t, exec (.hum 3) (validated .basicTh rowTh) = .next t) ∧ Instr.hum 3 ≠ .nop ∧ Instr.hum 3 ≠ .val592 ∧
      isValidator (.hum 3) = false := ⟨⟨_, rfl⟩, by decide⟩

theorem witness_CmdHoldsLastWordWritten :
    (∃ t, step (issuing [.write 0x00#8 0xFFFFFFFF#32] State.reset) = .next t) ∧
    (∃ t, step (issuing [.write 0x10#8 1#32] State.reset) = .next t) ∧
    (∃ t, step (issuing [.reset] State.reset) = .next t) := ⟨⟨_, rfl⟩, ⟨_, rfl⟩, ⟨_, rfl⟩⟩

/-- NOP's own word, and an illegal word with OPC 0x00. -/
theorem witness_NopChangesNothing :
    (issuing [.write 0x00 0] State.reset).pending = .write 0x00#8 0#32 :: [] ∧ (0#32).toNat % 256 = 0 ∧
    (issuing [.write 0x00 0x100] State.reset).pending = .write 0x00#8 0x100#32 :: [] ∧
    (0x100#32).toNat % 256 = 0 ∧ 0x100#32 ≠ 0#32 := by decide

/-- The three clauses of VAL5: byte 0 zero, sums equal (5A), sums different (5G). -/
theorem witness_Val5Result :
    (loaded Row.zero).frame.b0 = 0#8 ∧
    (nextOf (exec .val5 (loaded row5A))).map (·.code) = some .ok ∧
    (nextOf (exec .val5 (loaded { row5A with b7 := 0x81 }))).map (·.code) = some .checksumMismatch := by decide

theorem witness_ValrgResult :
    (1 * 1 * 1 ≠ 0 ∧ (0#8).toNat + (0#8).toNat = 0) ∧
    (nextOf (exec .valrg (loaded ⟨1, 1, 1, 0, 0, 0xFF, 0, 0, 0⟩))).map (·.code) = some .ok ∧
    (nextOf (exec .valrg (loaded ⟨1, 1, 1, 0, 1, 0, 0, 0, 0⟩))).map (·.code) = some .structuralMismatch := by decide

/-- The clauses of VALTH: byte 5, zero sum, wrong sum, accept. -/
theorem witness_ValthResult :
    (nextOf (exec .valth (loaded ⟨0, 0, 0, 0, 0, 1, 0, 0, 0⟩))).map (·.code) = some .structuralMismatch ∧
    (nextOf (exec .valth (loaded Row.zero))).map (·.code) = some .checksumMismatch ∧
    (nextOf (exec .valth (loaded { rowTh with b4 := 0xE5 }))).map (·.code) = some .checksumMismatch ∧
    (nextOf (exec .valth (loaded rowTh))).map (·.code) = some .ok := by decide

/-- The clauses of VAL592: BITLEN 0, structure, sum, parity, accept with BITLEN 1. -/
theorem witness_Val592Result :
    (nextOf (exec .val592 (loaded row592))).map (·.code) = some .skippedBitlen ∧
    (nextOf (exec .val592 { loaded { row592 with b7 := 1 } with bitlen := 1 })).map (·.code) = some .structuralMismatch ∧
    (nextOf (exec .val592 { loaded { row592 with b6 := 0x57 } with bitlen := 1 })).map (·.code) = some .checksumMismatch ∧
    (nextOf (exec .val592 { loaded { row592 with b3 := 0xD5, b6 := 0xFE } with bitlen := 1 })).map (·.code) =
      some .parityMismatch ∧
    (nextOf (exec .val592 { loaded row592 with bitlen := 1 })).map (·.code) = some .ok := by decide

theorem witness_AcceptedFrameRecomputes :
    (∃ t, exec .val5 (loaded row5A) = .next t ∧ t.code = .ok) ∧
    (∃ t, exec .valth (loaded rowTh) = .next t ∧ t.code = .ok) ∧
    (∃ t, exec .val592 { loaded row592 with bitlen := 1 } = .next t ∧ t.code = .ok) := by
  refine ⟨⟨_, rfl, ?_⟩, ⟨_, rfl, ?_⟩, ⟨_, rfl, ?_⟩⟩ <;> decide

theorem witness_RevalidationGivesSameOutcome :
    ∃ t u w, isValidator .val5 = true ∧ isValidator .mtype5 = false ∧ exec .val5 (loaded row5A) = .next t ∧
      exec .mtype5 t = .next u ∧ exec .val5 u = .next w := ⟨_, _, _, rfl, rfl, rfl, rfl, rfl⟩

/-- Two rows that agree on bytes 0..4 and differ after them; the deeper clauses with equal bytes. -/
theorem witness_VerdictDependsOnlyOnExaminedBytes :
    let s := loaded ⟨0x10, 0x01, 0x0A, 0, 0, 0, 0, 0, 0⟩
    let t := { loaded ⟨0x10, 0x01, 0x0A, 0, 0, 0, 0, 0, 9⟩ with bitlen := 0 }
    s.frame.b0 = t.frame.b0 ∧ s.frame.b1 = t.frame.b1 ∧ s.frame.b2 = t.frame.b2 ∧ s.frame.b3 = t.frame.b3 ∧
      s.frame.b4 = t.frame.b4 ∧ s.frame.b5 = t.frame.b5 ∧ s.frame.b6 = t.frame.b6 ∧ s.frame.b7 = t.frame.b7 ∧
      (s.bitlen = 0#16 ↔ t.bitlen = 0#16) ∧ s.paritySense = t.paritySense ∧ s.frame ≠ t.frame ∧
      (∃ s' t', exec .valrg s = .next s' ∧ exec .valrg t = .next t') ∧
      (∃ s' t', exec .valth s = .next s' ∧ exec .valth t = .next t') ∧
      (∃ s' t', exec .val592 s = .next s' ∧ exec .val592 t = .next t') ∧
      (∃ s' t', exec .val5 s = .next s' ∧ exec .val5 { s with nb := nb5A } = .next t') :=
  ⟨rfl, rfl, rfl, rfl, rfl, rfl, rfl, rfl, by decide, rfl, by decide, ⟨_, _, rfl, rfl⟩, ⟨_, _, rfl, rfl⟩,
    ⟨_, _, rfl, rfl⟩, ⟨_, _, rfl, rfl⟩⟩

theorem witness_DecodeRefusedWithoutValidation :
    (validated .none nb5A).proto = .none ∧ (Instr.rdelta 8 8 0).wellFormed (validated .none nb5A).numRainInst = true ∧
    (∃ ia ib inst, Instr.rdelta 8 8 0 = .rdelta ia ib inst) ∧ isFieldCommand (.wspd 8 8) = true :=
  ⟨rfl, by decide, ⟨_, _, _, rfl⟩, rfl⟩

/-- The PROTO clauses of MTYPE5 and of the eight field commands: none, another family, and 5-in-1. -/
theorem witness_Mtype5Result_and_field_results :
    (validated .none nb5A).proto = .none ∧ (validated .basicTh rowTh).proto ≠ .none ∧
    (validated .basicTh rowTh).proto ≠ .fiveInOne ∧ (validated .fiveInOne nb5A).proto = .fiveInOne ∧
    (validated .fiveInOne nb5A).proto ≠ .none := by decide

theorem witness_DecodeReadsOnlyProtoAndNb :
    let s := validated .fiveInOne nb5A
    let t := { s with frame := row592, bitlen := 7, code := .wrongKind, rain := [] }
    isFieldCommand (.temp5 8 8) = true ∧ s.proto = t.proto ∧ s.nb = t.nb ∧
      (∃ s', exec (.temp5 8 8) s = .next s') ∧ (∃ t', exec (.temp5 8 8) t = .next t') :=
  ⟨rfl, rfl, rfl, ⟨_, rfl⟩, ⟨_, rfl⟩⟩

/-- The clauses of RDELTA: no frame, another family, another type, a clear entry, a set entry. -/
theorem witness_RdeltaResult :
    (validated .fiveInOne nb5A).rain[(0 : InstIndex).val]? = some ⟨false, 0⟩ ∧
    (validated .none nb5A).proto = .none ∧ (validated .basicTh rowTh).proto ≠ .fiveInOne ∧
    ({ nb5A with b2 := 0x78 } : Row).b2.toNat % 16 ≠ 1 ∧ nb5A.b2.toNat % 16 = 1 ∧
    ({ validated .fiveInOne nb5A with rain := [⟨true, 16383⟩] } : State).rain[(0 : InstIndex).val]? =
      some ⟨true, 16383⟩ := by decide

theorem witness_RclrResult : (0 : InstIndex).val < State.reset.numRainInst := by decide

theorem witness_RainCommandsRejectMissingEntry : State.reset.numRainInst ≤ (1 : InstIndex).val := by decide

/-- The first frame at counter 16380 and the second 7 tips later, across the wrap (HI and LO of V-RDELTA). -/
theorem witness_RainDeltaCountsTipsSinceBaseline :
    let s := validated .fiveInOne { nb5A with b5 := 0x7F, b6 := 0x7C }
    let u := { validated .fiveInOne nbLO with rain := [⟨true, 16380⟩] }
    s.rain[(0 : InstIndex).val]? = some ⟨false, 0⟩ ∧ s.proto = .fiveInOne ∧ s.nb.b2.toNat % 16 = 1 ∧
      (∃ t, exec (.rdelta 5 6 0) s = .next t ∧ u.rain = t.rain) ∧ u.proto = .fiveInOne ∧ u.nb.b2.toNat % 16 = 1 ∧
      (u.nb.get 5).toNat % 128 * 128 + (u.nb.get 6).toNat % 128 =
        ((s.nb.get 5).toNat % 128 * 128 + (s.nb.get 6).toNat % 128 + 7) % 2 ^ 14 :=
  ⟨by decide, rfl, by decide, ⟨_, rfl, by decide⟩, rfl, by decide, by decide⟩

theorem witness_RainInstancesAreIndependent :
    let s := { validated .fiveInOne nb5A with rain := [⟨false, 0⟩, ⟨true, 3⟩] }
    let t := { validated .fiveInOne nb5A with rain := [⟨false, 0⟩, ⟨false, 0⟩, ⟨true, 9⟩] }
    (∃ s', exec (.rdelta 5 6 0) s = .next s') ∧ t.proto = s.proto ∧ t.nb = s.nb ∧ t.result0 = s.result0 ∧
      t.result1 = s.result1 ∧ t.rain[(0 : InstIndex).val]? = s.rain[(0 : InstIndex).val]? ∧
      (∃ t', exec (.rdelta 5 6 0) t = .next t') ∧ (∃ s', exec (.rclr 0) s = .next s') ∧
      (∃ t', exec (.rclr 0) t = .next t') :=
  ⟨⟨_, rfl⟩, rfl, rfl, rfl, rfl, rfl, ⟨_, rfl⟩, ⟨_, rfl⟩, ⟨_, rfl⟩⟩

/-- A validator that accepts and one that rejects; the addresses of the frame's clauses. -/
theorem witness_ValidatorFrame :
    isValidator .val5 = true ∧ (∃ t, exec .val5 (loaded row5A) = .next t) ∧
    (∃ t, exec .val5 (loaded Row.zero) = .next t ∧ t.code ≠ .ok) ∧ (0x28#8).toNat ≠ 0x01 ∧
    (0x20 ≤ (0x28#8).toNat ∧ (0x28#8).toNat ≤ 0x28) ∧ (0x29#8).toNat ≠ 0x01 :=
  ⟨rfl, ⟨_, rfl⟩, ⟨_, rfl, by decide⟩, by decide, by decide, by decide⟩

theorem witness_FieldCommandFrame :
    isFieldCommand (.hum 8) = true ∧ (∃ t, exec (.hum 8) (validated .basicTh rowTh) = .next t) ∧
    (∃ t, exec .mtype5 (validated .fiveInOne nb5A) = .next t) ∧ (0x04#8).toNat ≠ 0x01 ∧ (0x04#8).toNat ≠ 0x02 ∧
    (0x04#8).toNat ≠ 0x03 := ⟨rfl, ⟨_, rfl⟩, ⟨_, rfl⟩, by decide, by decide, by decide⟩

theorem witness_RainCommandFrame :
    (∃ t, exec (.rdelta 5 6 0) (validated .fiveInOne nb5A) = .next t) ∧ (∃ t, exec (.rclr 0) State.reset = .next t) ∧
    (0x31#8).toNat ≠ 0x30 + (0 : InstIndex).val ∧ (0x31#8).toNat ≠ 0x01 ∧ (0x31#8).toNat ≠ 0x02 ∧
    (0x31#8).toNat ≠ 0x03 := ⟨⟨_, rfl⟩, ⟨_, rfl⟩, by decide, by decide, by decide, by decide⟩

end Sys2Proof.Tests
end

namespace Sys2Proof.Machine

/-! ### Who writes the baseline file -/

/-- A validator does not touch the baseline file (R82). -/
@[simp] theorem conclude_rain (v : Verdict) (s : State) : (conclude v s).rain = s.rain := by
  cases v <;> rfl

/-- A field command does not touch the baseline file (R110). -/
@[simp] theorem fieldCommand_rain (r0 r1 : Int) (s : State) :
    (fieldCommand r0 r1 s).rain = s.rain := by
  obtain ⟨-, h⟩ | ⟨-, h⟩ := fieldCommand_cases r0 r1 s <;> simp [h]

/-- MTYPE5 does not touch the baseline file (R101). -/
theorem execMtype5_rain {s t : State} (h : execMtype5 s = .next t) : t.rain = s.rain := by
  obtain ⟨-, ht⟩ | ⟨-, -, ht⟩ | ⟨_, -, -, -, ht⟩ := execMtype5_cases s <;>
    (rw [ht] at h; cases h; simp)

/-- RDELTA keeps the baseline file, or sets the named entry, which was not set, to the counter (R131). -/
theorem execRdelta_rain {ia ib : ByteIndex} {inst : InstIndex} {s t : State}
    (h : execRdelta ia ib inst s = .next t) :
    t.rain = s.rain ∨
    ∃ e, s.rain[inst.val]? = some e ∧ e.bv = false ∧ t.rain = s.rain.set inst
      ⟨true, BitVec.ofNat 14 (rainCounter (s.nb.get ia) (s.nb.get ib))⟩ := by
  obtain ⟨-, ht⟩ | ⟨-, -, ht⟩ | ⟨-, -, -, ht⟩ | ⟨e, he, -, -, ht⟩ := execRdelta_cases ia ib inst s
  all_goals
    rw [ht] at h
    cases h
  · exact .inl (raise_rain s _)
  · exact .inl (raise_rain s _)
  · exact .inl (raise_rain s _)
  · obtain ⟨hbv, hm⟩ | ⟨-, hm⟩ :=
      measureRain_cases inst (rainCounter (s.nb.get ia) (s.nb.get ib)) e s
    · exact .inr ⟨e, he, hbv, by simp [hm]⟩
    · exact .inl (by simp [hm])

/-- RCLR keeps the baseline file, or clears the named entry (R134). -/
theorem execRclr_rain {inst : InstIndex} {s t : State} (h : execRclr inst s = .next t) :
    t.rain = s.rain ∨ t.rain = s.rain.set inst RainEntry.clear := by
  obtain ⟨-, ht⟩ | ⟨-, ht⟩ := execRclr_cases inst s
  · rw [ht] at h
    cases h
    exact .inl (raise_rain s _)
  · rw [ht] at h
    cases h
    exact .inr (by simp)

/-- All that a command can do to the baseline file: nothing, RDELTA's setting of an unset entry, or
RCLR's clearing of one (R133). -/
theorem exec_rain_cases {i : Instr} {s t : State} (h : exec i s = .next t) :
    t.rain = s.rain ∨
    (∃ ia ib inst e, i = .rdelta ia ib inst ∧ s.rain[inst.val]? = some e ∧ e.bv = false ∧
      t.rain = s.rain.set inst
        ⟨true, BitVec.ofNat 14 (rainCounter (s.nb.get ia) (s.nb.get ib))⟩) ∨
    (∃ inst, i = .rclr inst ∧ t.rain = s.rain.set inst RainEntry.clear) := by
  obtain ⟨-, rfl⟩ | ⟨-, rfl⟩ | ⟨-, rfl⟩ | ⟨-, rfl⟩ | ⟨-, rfl⟩ | ⟨-, hm⟩ | ⟨-, _, _, rfl⟩ |
    ⟨ia, ib, inst, rfl, hd⟩ | ⟨inst, rfl, hc⟩ := exec_cases h
  · exact .inl rfl
  · exact .inl (conclude_rain _ s)
  · exact .inl (conclude_rain _ s)
  · exact .inl (conclude_rain _ s)
  · exact .inl (conclude_rain _ s)
  · exact .inl (execMtype5_rain hm)
  · exact .inl (fieldCommand_rain _ _ s)
  · exact (execRdelta_rain hd).imp_right fun ⟨e, he, hbv, ht⟩ =>
      .inl ⟨ia, ib, inst, e, rfl, he, hbv, ht⟩
  · exact (execRclr_rain hc).imp_right fun ht => .inr ⟨inst, rfl, ht⟩

/-! ### The baseline file's invariant -/

section
variable {s t : State}

/-- The invariant speaks of the baseline file alone. -/
theorem State.RainFileFits.of_rain_eq (hs : s.RainFileFits) (h : t.rain = s.rain) :
    t.RainFileFits := by
  obtain ⟨hne, hmax, hunset⟩ := hs
  exact ⟨h ▸ hne, h ▸ hmax, h ▸ hunset⟩

/-- Writing one entry keeps the invariant when that entry is set or holds 0. -/
theorem State.RainFileFits.of_rain_set (hs : s.RainFileFits) {k : Nat} {e : RainEntry}
    (he : e.bv = false → e.bval = 0#14) (h : t.rain = s.rain.set k e) : t.RainFileFits := by
  obtain ⟨hne, hmax, hunset⟩ := hs
  have hlen : t.rain.length = s.rain.length := by simp [h]
  refine ⟨hlen ▸ hne, hlen ▸ hmax, fun x hx => ?_⟩
  obtain hx | rfl := List.mem_or_eq_of_mem_set (h ▸ hx)
  · exact hunset x hx
  · exact he

/-- Power-on with the same number of entries keeps the invariant: every entry is clear (R33). -/
theorem State.RainFileFits.after_powerOn (hs : s.RainFileFits) (p : ParitySense) (l : List HostEvent) :
    (State.powerOn p s.numRainInst l).RainFileFits := by
  obtain ⟨hne, hmax, -⟩ := hs
  have hlen : (State.powerOn p s.numRainInst l).rain.length = s.rain.length := by
    simp [State.numRainInst]
  refine ⟨hlen ▸ hne, hlen ▸ hmax, fun x hx _ => ?_⟩
  rw [powerOn_rain] at hx
  rw [List.eq_of_mem_replicate hx]
  rfl

/-- Every command keeps the invariant: the entry RDELTA writes is set, the one RCLR writes is 0. -/
theorem State.RainFileFits.after_exec (hs : s.RainFileFits) {i : Instr} (h : exec i s = .next t) :
    t.RainFileFits := by
  obtain ht | ⟨_, _, _, _, -, -, -, ht⟩ | ⟨_, -, ht⟩ := exec_rain_cases h
  · exact hs.of_rain_eq ht
  · exact hs.of_rain_set (by simp) ht
  · exact hs.of_rain_set (fun _ => rfl) ht

end

/-- Settles O21, by cases on the step: only a command and a reset write the baseline file. -/
theorem stepKeepsRainFileFits : Obligations.StepKeepsRainFileFits := by
  intro s t hs h
  obtain ⟨-, rfl⟩ | ⟨_, _, -, rfl⟩ | ⟨v, rest, _, -, -, hexec⟩ | ⟨_, _, _, -, -, rfl⟩ |
    ⟨_, _, _, _, -, -, rfl⟩ | ⟨_, _, _, -, -, rfl⟩ | ⟨_, _, _, -, -, -, -, rfl⟩ |
    ⟨rest, -, rfl⟩ := step_cases h
  · exact hs
  · exact hs.of_rain_eq rfl
  · have hready : { s with pending := rest, readData := none, cmd := v }.RainFileFits :=
      hs.of_rain_eq rfl
    exact hready.after_exec hexec
  · exact hs.of_rain_eq (raise_rain _ _)
  · exact hs.of_rain_eq (writeFrame_rain _ _ _)
  · exact hs.of_rain_eq (writeBitlen_rain _ _)
  · exact hs.of_rain_eq rfl
  · exact hs.after_powerOn s.paritySense rest

end Sys2Proof.Machine

namespace Sys2Proof.Machine

/-! ### What the templates leave unchanged -/

section
variable (v : Verdict) (s : State)

@[simp] theorem conclude_frame : (conclude v s).frame = s.frame := by cases v <;> rfl
@[simp] theorem conclude_bitlen : (conclude v s).bitlen = s.bitlen := by cases v <;> rfl
@[simp] theorem conclude_cmd : (conclude v s).cmd = s.cmd := by cases v <;> rfl
@[simp] theorem conclude_result0 : (conclude v s).result0 = s.result0 := by cases v <;> rfl
@[simp] theorem conclude_result1 : (conclude v s).result1 = s.result1 := by cases v <;> rfl
@[simp] theorem conclude_blset : (conclude v s).blset = false := by cases v <;> rfl
@[simp] theorem conclude_paritySense : (conclude v s).paritySense = s.paritySense := by
  cases v <;> rfl
@[simp] theorem conclude_pending : (conclude v s).pending = s.pending := by cases v <;> rfl
@[simp] theorem conclude_readData : (conclude v s).readData = s.readData := by cases v <;> rfl

end

/-! ### The outcomes of a command -/

/-- `v` is the verdict that the validator `i` gives in the state `s` (R84, R87, R89, R92). -/
inductive Judges (s : State) : Instr → Verdict → Prop
  | val5 : Judges s .val5 (judge5 s.frame)
  | valrg : Judges s .valrg (judgeRg s.frame)
  | valth : Judges s .valth (judgeTh s.frame)
  | val592 : Judges s .val592 (judge592 s.paritySense s.bitlen s.frame)

/-- Only a validator gives a verdict. -/
theorem Judges.isValidator {s : State} {i : Instr} {v : Verdict} (hj : Judges s i v) :
    isValidator i = true := by
  cases hj <;> rfl

/-- The commands that can end with both results written and `code` (R28): a field command, MTYPE5 or
RDELTA with OK, and MTYPE5 with UNKNOWN_SUBTYPE. -/
def WritesResultsWith (i : Instr) (code : StatusCode) : Prop :=
  (code = .ok ∧ (isFieldCommand i = true ∨ i = .mtype5 ∨ ∃ ia ib inst, i = .rdelta ia ib inst)) ∨
    (code = .unknownSubtype ∧ i = .mtype5)

/-- A field command is no validator. -/
theorem isValidator_of_isFieldCommand {i : Instr} (h : isFieldCommand i = true) :
    isValidator i = false := by
  cases i <;> simp_all [isFieldCommand, isValidator]

/-- All that a command can do, one case per outcome: nothing, a validator's conclusion, a refusal, two
results written, RDELTA's setting of a baseline, and RCLR's clearing of one. -/
theorem exec_outcomes {i : Instr} {s t : State} (h : exec i s = .next t) :
    (i = .nop ∧ t = s) ∨
    (∃ v, Judges s i v ∧ t = conclude v s) ∨
    (isValidator i = false ∧ ∃ code, t = raise code s) ∨
    (isValidator i = false ∧ ∃ code r0 r1, WritesResultsWith i code ∧
      t = setStatus code 0#3 false 0#8 (setResults r0 r1 s)) ∨
    (∃ ia ib inst, i = .rdelta ia ib inst ∧ ∃ e r0 r1,
      t = setStatus .ok 0#3 true 0#8 (setResults r0 r1 (setRain inst e s))) ∨
    (∃ inst, i = .rclr inst ∧
      t = setStatus .ok 0#3 false 0#8 (setRain inst RainEntry.clear s)) := by
  obtain ⟨rfl, rfl⟩ | ⟨rfl, rfl⟩ | ⟨rfl, rfl⟩ | ⟨rfl, rfl⟩ | ⟨rfl, rfl⟩ | ⟨rfl, hm⟩ | ⟨hf, r0, r1, rfl⟩ |
    ⟨ia, ib, inst, rfl, hd⟩ | ⟨inst, rfl, hc⟩ := exec_cases h
  · exact .inl ⟨rfl, rfl⟩
  · exact .inr (.inl ⟨_, .val5, rfl⟩)
  · exact .inr (.inl ⟨_, .valrg, rfl⟩)
  · exact .inr (.inl ⟨_, .valth, rfl⟩)
  · exact .inr (.inl ⟨_, .val592, rfl⟩)
  · obtain ⟨-, ht⟩ | ⟨-, -, ht⟩ | ⟨code, -, hcode, -, ht⟩ := execMtype5_cases s
    all_goals
      rw [ht] at hm
      cases hm
    · exact .inr (.inr (.inl ⟨rfl, _, rfl⟩))
    · exact .inr (.inr (.inl ⟨rfl, _, rfl⟩))
    · have hw : WritesResultsWith .mtype5 code :=
        hcode.imp (fun hok => ⟨hok, .inr (.inl rfl)⟩) (fun hsub => ⟨hsub, rfl⟩)
      exact .inr (.inr (.inr (.inl ⟨rfl, code, _, _, hw, rfl⟩)))
  · have hv := isValidator_of_isFieldCommand hf
    obtain ⟨-, ht⟩ | ⟨-, ht⟩ := fieldCommand_cases r0 r1 s
    · exact .inr (.inr (.inl ⟨hv, _, ht⟩))
    · exact .inr (.inr (.inr (.inl ⟨hv, .ok, r0, r1, .inl ⟨rfl, .inl hf⟩, ht⟩)))
  · obtain ⟨-, ht⟩ | ⟨-, -, ht⟩ | ⟨-, -, -, ht⟩ | ⟨e, -, -, -, ht⟩ := execRdelta_cases ia ib inst s
    all_goals
      rw [ht] at hd
      cases hd
    · exact .inr (.inr (.inl ⟨rfl, _, rfl⟩))
    · exact .inr (.inr (.inl ⟨rfl, _, rfl⟩))
    · exact .inr (.inr (.inl ⟨rfl, _, rfl⟩))
    · obtain ⟨-, ht⟩ | ⟨-, ht⟩ :=
        measureRain_cases inst (rainCounter (s.nb.get ia) (s.nb.get ib)) e s
      · exact .inr (.inr (.inr (.inr (.inl ⟨ia, ib, inst, rfl, _, _, _, ht⟩))))
      · have hw : WritesResultsWith (.rdelta ia ib inst) .ok :=
          .inl ⟨rfl, .inr (.inr ⟨ia, ib, inst, rfl⟩)⟩
        exact .inr (.inr (.inr (.inl ⟨rfl, .ok, _, _, hw, ht⟩)))
  · obtain ⟨-, ht⟩ | ⟨-, ht⟩ := execRclr_cases inst s
    all_goals
      rw [ht] at hc
      cases hc
    · exact .inr (.inr (.inl ⟨rfl, _, rfl⟩))
    · exact .inr (.inr (.inr (.inr (.inr ⟨inst, rfl, rfl⟩))))

/-- Settles O24, by cases on the outcome: none of them writes the host's side or a parameter. -/
theorem commandsKeepHostRegistersAndParameters :
    Obligations.CommandsKeepHostRegistersAndParameters := by
  intro i s t h
  obtain ⟨-, rfl⟩ | ⟨_, -, rfl⟩ | ⟨-, _, rfl⟩ | ⟨-, _, _, _, -, rfl⟩ | ⟨_, _, _, -, _, _, _, rfl⟩ |
    ⟨_, -, rfl⟩ := exec_outcomes h <;> simp

/-- Settles O29, by cases on the outcome: a command that is no validator writes both results or none. -/
theorem resultsWrittenOnlyOnSuccess : Obligations.ResultsWrittenOnlyOnSuccess := by
  intro i s t h
  obtain ⟨-, rfl⟩ | ⟨_, -, rfl⟩ | ⟨-, _, rfl⟩ | ⟨-, _, _, _, hw, rfl⟩ |
    ⟨ia, ib, inst, rfl, _, _, _, rfl⟩ | ⟨_, -, rfl⟩ := exec_outcomes h
  · exact .inl ⟨rfl, rfl⟩
  · exact .inl ⟨conclude_result0 _ s, conclude_result1 _ s⟩
  · exact .inl ⟨rfl, rfl⟩
  · exact .inr hw
  · exact .inr (.inl ⟨rfl, .inr (.inr ⟨ia, ib, inst, rfl⟩)⟩)
  · exact .inl ⟨rfl, rfl⟩

/-- Of the four validators only VAL592 reports a parity mask (R94). -/
theorem Judges.conclude_parfail {s : State} {i : Instr} {v : Verdict} (hj : Judges s i v)
    (hi : i ≠ .val592) : (conclude v s).parfail = 0#3 := by
  cases hj with
  | val5 => obtain ⟨-, hv⟩ | ⟨-, -, hv⟩ | ⟨-, -, hv⟩ := judge5_cases s.frame <;> rw [hv] <;> rfl
  | valrg => obtain ⟨-, hv⟩ | ⟨-, hv⟩ := judgeRg_cases s.frame <;> rw [hv] <;> rfl
  | valth => obtain ⟨-, hv⟩ | ⟨-, -, hv⟩ | ⟨-, -, -, hv⟩ := judgeTh_cases s.frame <;> rw [hv] <;> rfl
  | val592 => exact absurd rfl hi

/-- Settles O30, by cases on the outcome: every status but NOP's, a validator's and a set baseline's is
zero in all three fields. -/
theorem statusFieldsZeroUnlessNamed : Obligations.StatusFieldsZeroUnlessNamed := by
  intro i s t h hnop
  obtain ⟨hi, -⟩ | ⟨_, hj, rfl⟩ | ⟨-, _, rfl⟩ | ⟨-, _, _, _, -, rfl⟩ |
    ⟨ia, ib, inst, hi, _, _, _, rfl⟩ | ⟨_, -, rfl⟩ := exec_outcomes h
  · exact absurd hi hnop
  · exact ⟨hj.conclude_parfail, fun _ => conclude_blset _ s, fun hv => by simp [hj.isValidator] at hv⟩
  · exact ⟨fun _ => rfl, fun _ => rfl, fun _ => rfl⟩
  · exact ⟨fun _ => rfl, fun _ => rfl, fun _ => rfl⟩
  · exact ⟨fun _ => rfl, fun hne => absurd hi (hne ia ib inst), fun _ => rfl⟩
  · exact ⟨fun _ => rfl, fun _ => rfl, fun _ => rfl⟩

/-! ### The accepted frame -/

section
variable {s t : State}

/-- With no validated frame there is nothing to hold (R31). -/
theorem State.HoldsAcceptedFrame.of_proto_none (h : t.proto = .none) : t.HoldsAcceptedFrame := by
  simp [State.HoldsAcceptedFrame, h]

/-- The invariant speaks of PROTO, NB, FRAME, BITLEN and PARITY_SENSE alone. -/
theorem State.HoldsAcceptedFrame.of_same (hs : s.HoldsAcceptedFrame) (hproto : t.proto = s.proto)
    (hnb : t.nb = s.nb) (hframe : t.frame = s.frame) (hbitlen : t.bitlen = s.bitlen)
    (hsense : t.paritySense = s.paritySense) : t.HoldsAcceptedFrame := by
  simpa only [State.HoldsAcceptedFrame, hproto, hnb, hframe, hbitlen, hsense] using hs

end

/-- The PROTO code that the validator `i` sets when it accepts (R24). -/
def acceptedProto : Instr → Proto
  | .val5 => .fiveInOne
  | .valrg => .rainGauge
  | .valth => .basicTh
  | .val592 => .parity592
  | .nop | .mtype5 | .temp5 _ _ | .tempth _ _ | .temp592 _ _ | .wspd _ _ | .wdir _ | .hum _
  | .rain14 _ _ | .rgtotal _ _ | .rdelta _ _ _ | .rclr _ => .none

/-- The row that the validator `i` writes to NB when it accepts FRAME (R83, R97). -/
def acceptedNb (i : Instr) (f : Row) : Row := if i = .val5 then norm5 f else f

/-- The state `t` is what the validator `i` leaves when it accepts in the state `s` (R82). -/
structure Accepts (i : Instr) (s t : State) : Prop where
  code_ok : t.code = .ok
  proto_own : t.proto = acceptedProto i
  nb_written : t.nb = acceptedNb i s.frame
  holds : t.HoldsAcceptedFrame

/-- A verdict concludes in one of two ways: it accepts a row that meets the validator's conditions, or it
leaves no validated frame and keeps NB (R82, R96). -/
theorem Judges.conclude_cases {s : State} {i : Instr} {v : Verdict} (hj : Judges s i v) :
    Accepts i s (conclude v s) ∨ ((conclude v s).proto = .none ∧ (conclude v s).nb = s.nb) := by
  cases hj with
  | val5 =>
    obtain ⟨-, hv⟩ | ⟨h0, hsum, hv⟩ | ⟨-, -, hv⟩ := judge5_cases s.frame <;> rw [hv]
    · exact .inr ⟨rfl, rfl⟩
    · exact .inl ⟨rfl, rfl, rfl, h0, rfl, hsum⟩
    · exact .inr ⟨rfl, rfl⟩
  | valrg =>
    obtain ⟨⟨h0, h1, h2, h3, h4⟩, hv⟩ | ⟨-, hv⟩ := judgeRg_cases s.frame <;> rw [hv]
    · exact .inl ⟨rfl, rfl, rfl, rfl, h0, h1, h2, h3, h4⟩
    · exact .inr ⟨rfl, rfl⟩
  | valth =>
    obtain ⟨-, hv⟩ | ⟨-, -, hv⟩ | ⟨h5, h0, h4, hv⟩ := judgeTh_cases s.frame <;> rw [hv]
    · exact .inr ⟨rfl, rfl⟩
    · exact .inr ⟨rfl, rfl⟩
    · exact .inl ⟨rfl, rfl, rfl, rfl, h5, h4, h4 ▸ h0⟩
  | val592 =>
    obtain ⟨-, hv⟩ | ⟨-, -, hv⟩ | ⟨-, -, -, -, hv⟩ | ⟨-, -, -, -, -, hv⟩ |
      ⟨hlen, h0, h7, hsum, hpf, hv⟩ := judge592_cases s.paritySense s.bitlen s.frame <;> rw [hv]
    · exact .inr ⟨rfl, rfl⟩
    · exact .inr ⟨rfl, rfl⟩
    · exact .inr ⟨rfl, rfl⟩
    · exact .inr ⟨rfl, rfl⟩
    · obtain ⟨hp3, hp4, hp5⟩ := (parityFailures_zero _ _ _ _).mp hpf
      exact .inl ⟨rfl, rfl, rfl, rfl, hlen, h0, h7, hsum, hp3, hp4, hp5⟩

/-- All that a command can do to PROTO and NB: keep both, accept as a validator, or reject as one (R22,
R24). -/
theorem exec_proto_nb_cases {i : Instr} {s t : State} (h : exec i s = .next t) :
    (t.proto = s.proto ∧ t.nb = s.nb) ∨
    (isValidator i = true ∧ Accepts i s t) ∨
    (isValidator i = true ∧ t.proto = .none ∧ t.nb = s.nb) := by
  obtain ⟨-, rfl⟩ | ⟨_, hj, rfl⟩ | ⟨-, _, rfl⟩ | ⟨-, _, _, _, -, rfl⟩ | ⟨_, _, _, -, _, _, _, rfl⟩ |
    ⟨_, -, rfl⟩ := exec_outcomes h
  · exact .inl ⟨rfl, rfl⟩
  · exact .inr (hj.conclude_cases.imp (⟨hj.isValidator, ·⟩) (⟨hj.isValidator, ·⟩))
  · exact .inl ⟨rfl, rfl⟩
  · exact .inl ⟨rfl, rfl⟩
  · exact .inl ⟨rfl, rfl⟩
  · exact .inl ⟨rfl, rfl⟩

/-- Every command keeps R31. -/
theorem State.HoldsAcceptedFrame.after_exec {i : Instr} {s t : State} (hs : s.HoldsAcceptedFrame)
    (h : exec i s = .next t) : t.HoldsAcceptedFrame := by
  obtain ⟨hframe, hbitlen, -, hsense, -⟩ := commandsKeepHostRegistersAndParameters i s t h
  obtain ⟨hproto, hnb⟩ | ⟨-, hacc⟩ | ⟨-, hnone, -⟩ := exec_proto_nb_cases h
  · exact hs.of_same hproto hnb hframe hbitlen hsense
  · exact hacc.holds
  · exact .of_proto_none hnone

/-- Settles O19, by cases on the step: a FRAME or BITLEN write and a reset leave no validated frame, and
only a command writes NB. -/
theorem stepKeepsAcceptedFrame : Obligations.StepKeepsAcceptedFrame := by
  intro s t hs h
  obtain ⟨-, rfl⟩ | ⟨_, _, -, rfl⟩ | ⟨v, rest, _, -, -, hexec⟩ | ⟨_, _, _, -, -, rfl⟩ |
    ⟨_, _, _, _, -, -, rfl⟩ | ⟨_, _, _, -, -, rfl⟩ | ⟨_, _, _, -, -, -, -, rfl⟩ |
    ⟨_, -, rfl⟩ := step_cases h
  · exact hs
  · exact hs.of_same rfl rfl rfl rfl rfl
  · have hready : { s with pending := rest, readData := none, cmd := v }.HoldsAcceptedFrame :=
      hs.of_same rfl rfl rfl rfl rfl
    exact hready.after_exec hexec
  · exact hs.of_same rfl rfl rfl rfl rfl
  · exact .of_proto_none (writeFrame_proto _ _ _)
  · exact .of_proto_none (writeBitlen_proto _ _)
  · exact hs.of_same rfl rfl rfl rfl rfl
  · exact .of_proto_none (powerOn_proto _ _ _)

/-! ### Who writes NB, PROTO, FRAME and CMD -/

/-- A validator's own PROTO code is not NONE (R24). -/
theorem acceptedProto_ne_none {i : Instr} (h : isValidator i = true) : acceptedProto i ≠ .none := by
  cases i <;> simp_all [isValidator, acceptedProto]

/-- Settles O26, by cases on the step: of the accesses only a command and a reset write NB, and of the
commands only a validator that accepts. -/
theorem nbWrittenOnlyOnAcceptance : Obligations.NbWrittenOnlyOnAcceptance := by
  intro s t h
  obtain ⟨-, rfl⟩ | ⟨_, _, -, rfl⟩ | ⟨v, rest, i, hp, hd, hexec⟩ | ⟨_, _, _, -, -, rfl⟩ |
    ⟨_, _, _, _, -, -, rfl⟩ | ⟨_, _, _, -, -, rfl⟩ | ⟨_, _, _, -, -, -, -, rfl⟩ |
    ⟨rest, hp, -⟩ := step_cases h
  · exact .inl rfl
  · exact .inl rfl
  · obtain ⟨-, hnb⟩ | ⟨hv, hok, hproto, hnb, -⟩ | ⟨-, -, hnb⟩ := exec_proto_nb_cases hexec
    · exact .inl hnb
    · have hne : t.proto ≠ .none := hproto ▸ acceptedProto_ne_none hv
      exact .inr (.inr ⟨v, rest, i, hp, hd, hv, hok, hne, hnb⟩)
    · exact .inl hnb
  · exact .inl rfl
  · exact .inl rfl
  · exact .inl rfl
  · exact .inl rfl
  · exact .inr (.inl ⟨rest, hp⟩)

/-- The validators by name, each with its own PROTO code or NONE (R24). -/
theorem validator_proto_cases {i : Instr} {p : Proto} (hv : isValidator i = true)
    (hp : p = acceptedProto i ∨ p = .none) :
    (i = .val5 ∧ (p = .fiveInOne ∨ p = .none)) ∨ (i = .valrg ∧ (p = .rainGauge ∨ p = .none)) ∨
    (i = .valth ∧ (p = .basicTh ∨ p = .none)) ∨ (i = .val592 ∧ (p = .parity592 ∨ p = .none)) := by
  cases i <;> simp_all [isValidator, acceptedProto]

/-- An address that names BITLEN is 0x04 (R42). -/
theorem toNat_of_regAt_bitlen {a : RegAddr} (h : regAt a = .bitlen) : a.toNat = 0x04 := by
  unfold regAt at h
  split_ifs at h with h0 h1 h2 h3 h4
  rw [h4]
  rfl

/-- An address that names FRAME[i] is 0x10 + i (R42). -/
theorem toNat_of_regAt_frame {a : RegAddr} {i : ByteIndex} (h : regAt a = .frame i) :
    a.toNat = 0x10 + i.val := by
  unfold regAt at h
  split_ifs at h with h0 h1 h2 h3 h4 hf
  cases h
  dsimp only
  omega

/-- Settles O27, by cases on the step: the two row writes and a reset leave NONE, and of the commands
only a validator writes PROTO. -/
theorem protoWrittenOnlyByNamedWriters : Obligations.ProtoWrittenOnlyByNamedWriters := by
  intro s t h
  obtain ⟨-, rfl⟩ | ⟨_, _, -, rfl⟩ | ⟨v, rest, i, hp, hd, hexec⟩ | ⟨_, _, _, -, -, rfl⟩ |
    ⟨a, i, v, rest, hp, ha, rfl⟩ | ⟨a, v, rest, hp, ha, rfl⟩ | ⟨_, _, _, -, -, -, -, rfl⟩ |
    ⟨rest, hp, rfl⟩ := step_cases h
  · exact .inl rfl
  · exact .inl rfl
  · obtain ⟨hproto, -⟩ | ⟨hv, hacc⟩ | ⟨hv, hnone, -⟩ := exec_proto_nb_cases hexec
    · exact .inl hproto
    · exact .inr (.inr (.inr ⟨v, rest, i, hp, hd, validator_proto_cases hv (.inl hacc.proto_own)⟩))
    · exact .inr (.inr (.inr ⟨v, rest, i, hp, hd, validator_proto_cases hv (.inr hnone)⟩))
  · exact .inl rfl
  · have haddr := toNat_of_regAt_frame ha
    exact .inr (.inr (.inl ⟨rfl, a, v, rest, hp, .inr (by omega)⟩))
  · exact .inr (.inr (.inl ⟨rfl, a, v, rest, hp, .inl (toNat_of_regAt_bitlen ha)⟩))
  · exact .inl rfl
  · exact .inr (.inl ⟨rfl, rest, hp⟩)

/-- Settles O25, by cases on the step: of the accesses only a FRAME write and a reset write FRAME. -/
theorem frameWrittenOnlyByHost : Obligations.FrameWrittenOnlyByHost := by
  intro s t h
  obtain ⟨-, rfl⟩ | ⟨_, _, -, rfl⟩ | ⟨_, _, _, -, -, hexec⟩ | ⟨_, _, _, -, -, rfl⟩ |
    ⟨a, i, v, rest, hp, ha, rfl⟩ | ⟨_, _, _, -, -, rfl⟩ | ⟨_, _, _, -, -, -, -, rfl⟩ |
    ⟨rest, hp, -⟩ := step_cases h
  · exact .inl rfl
  · exact .inl rfl
  · obtain ⟨hframe, -⟩ := commandsKeepHostRegistersAndParameters _ _ _ hexec
    exact .inl hframe
  · exact .inl rfl
  · refine .inr (.inr ⟨a, v, rest, i, hp, toNat_of_regAt_frame ha, ?_, fun j hj => ?_⟩)
    · simp
    · exact get_set_other _ _ _ _ hj
  · exact .inl rfl
  · exact .inl rfl
  · exact .inr (.inl ⟨rest, hp⟩)

/-- A write to an address that does not name CMD is no write to 0x00. -/
theorem ne_zero_of_regAt_ne_cmd {a : RegAddr} (h : regAt a ≠ .cmd) : a ≠ 0x00#8 := by
  rintro rfl
  exact h rfl

/-- A step by what it does to CMD: it performs a write to 0x00, a reset, or anything else (R29). -/
theorem step_cmd_cases {s t : State} (h : step s = .next t) :
    (∃ v rest, s.pending = .write 0x00#8 v :: rest ∧ t.cmd = v) ∨
    (∃ rest, s.pending = .reset :: rest ∧ t.cmd = 0#32) ∨
    ((∀ v rest, s.pending ≠ .write 0x00#8 v :: rest) ∧ (∀ rest, s.pending ≠ .reset :: rest) ∧
      t.cmd = s.cmd) := by
  obtain ⟨hp, rfl⟩ | ⟨_, _, hp, rfl⟩ | ⟨v, rest, _, hp, -, hexec⟩ | ⟨v, rest, _, hp, -, rfl⟩ |
    ⟨a, _, _, _, hp, ha, rfl⟩ | ⟨a, _, _, hp, ha, rfl⟩ | ⟨_, _, _, hp, ha, -, -, rfl⟩ |
    ⟨rest, hp, rfl⟩ := step_cases h
  · exact .inr (.inr (by simp [hp]))
  · exact .inr (.inr (by simp [hp]))
  · obtain ⟨-, -, hcmd, -⟩ := commandsKeepHostRegistersAndParameters _ _ _ hexec
    exact .inl ⟨v, rest, hp, hcmd⟩
  · exact .inl ⟨v, rest, hp, rfl⟩
  · have h0 : a ≠ 0x00#8 := ne_zero_of_regAt_ne_cmd (by simp [ha])
    exact .inr (.inr (by simp [hp, h0]))
  · have h0 : a ≠ 0x00#8 := ne_zero_of_regAt_ne_cmd (by simp [ha])
    exact .inr (.inr (by simp [hp, h0]))
  · exact .inr (.inr (by simp [hp, ne_zero_of_regAt_ne_cmd ha]))
  · exact .inr (.inl ⟨rest, hp, rfl⟩)

/-- Settles O31, from the three kinds of step. -/
theorem cmdHoldsLastWordWritten : Obligations.CmdHoldsLastWordWritten := by
  intro s t h
  obtain ⟨v, rest, hp, hcmd⟩ | ⟨rest, hp, hcmd⟩ | ⟨hw, hr, hcmd⟩ := step_cmd_cases h
  · simp_all
  · simp_all
  · exact ⟨fun v rest hp => absurd hp (hw v rest), fun _ _ => hcmd, fun rest hp => absurd hp (hr rest)⟩

/-! ### The STATUS word -/

/-- Bits placed above `m` others add their number times `2 ^ m`. -/
theorem toNat_append_eq_add {n m : Nat} (x : BitVec n) (y : BitVec m) :
    (x ++ y).toNat = x.toNat * 2 ^ m + y.toNat := by
  rw [BitVec.toNat_append, shift_or_eq _ _ _ y.isLt]

/-- STATUS as a sum of its fields (R25). -/
theorem statusWord_toNat (s : State) : (statusWord s).toNat =
    s.code.toBits.toNat + s.parfail.toNat * 2 ^ 4 + s.blset.toNat * 2 ^ 7 +
      (validBit s.proto).toNat * 2 ^ 8 + s.proto.toBits.toNat * 2 ^ 9 + s.csum.toNat * 2 ^ 16 := by
  unfold statusWord
  simp only [toNat_append_eq_add, BitVec.toNat_ofBool, BitVec.toNat_ofNat]
  omega

/-- Settles O11: the fields are summed, and each code and protocol has its number. -/
theorem statusWordLayout : Obligations.StatusWordLayout := by
  intro s code proto valid
  have hcode : s.code.toBits.toNat = code := by simp only [code]; cases s.code <;> rfl
  have hproto : s.proto.toBits.toNat = proto := by simp only [proto]; cases s.proto <;> rfl
  have hvalid : (validBit s.proto).toNat = valid := by simp only [valid]; cases s.proto <;> rfl
  rw [statusWord_toNat, hcode, hproto, hvalid]

/-! ### Reset -/

@[simp] theorem Row.zero_get (i : ByteIndex) : Row.zero.get i = 0#8 := by fin_cases i <;> rfl

/-- Every entry of a baseline file after reset reads 0, and so does a missing one (R33, R48). -/
theorem rbaseWord_replicate_clear (n k : Nat) :
    rbaseWord (List.replicate n RainEntry.clear)[k]? = 0#32 := by
  rw [List.getElem?_replicate]
  split <;> rfl

/-- STATUS reads 0 after power-on reset: every field of it is 0 (R25, R33). -/
theorem statusWord_powerOn (p : ParitySense) (n : Nat) (l : List HostEvent) :
    statusWord (State.powerOn p n l) = 0#32 := by
  simp [statusWord, validBit, Proto.toBits, StatusCode.toBits]

/-- Every register reads 0 after power-on reset (R33). -/
theorem readReg_powerOn (p : ParitySense) (n : Nat) (l : List HostEvent) (r : RegName) :
    readReg (State.powerOn p n l) r = 0#32 := by
  cases r with
  | status => exact statusWord_powerOn p n l
  | cmd | result0 | result1 | bitlen | reserved => rfl
  | frame i | nb i => simp [readReg]
  | rbase i => exact rbaseWord_replicate_clear n i.val

/-- Settles O17: the values are those of `State.powerOn`, and a host read reads one register. -/
theorem resetStateReadsZero : Obligations.ResetStateReadsZero :=
  ⟨⟨rfl, rfl, rfl, rfl, rfl, rfl, rfl, rfl, rfl, rfl, rfl, rfl⟩,
    fun p n l a => readReg_powerOn p n l (regAt a)⟩

/-- Settles O22: PROTO is NONE, every status field is 0, and the one entry is clear. -/
theorem resetMeetsInvariants : Obligations.ResetMeetsInvariants := by
  refine ⟨.of_proto_none rfl, ⟨?_, ?_, ?_, ?_, ?_⟩, ⟨?_, ?_, ?_⟩⟩ <;> decide

end Sys2Proof.Machine

namespace Sys2Proof

/-! ### The decoder on an encoded word -/

/-- R63 allocates opcodes from 0x01 to 0xFF only: NOP has no entry in the map. -/
theorem opcodeMap_bounds {opc : Nat} {c : OperandClass} (h : opcodeMap opc = some c) :
    opc ≠ 0 ∧ opc < 2 ^ 8 := by
  unfold opcodeMap at h
  split at h <;> simp_all

/-- An encoded word with an allocated opcode goes to that opcode's class, which finds in each operand
field the number encoded there (R64, R67). -/
theorem decode_enc {numInst opc ia ib inst : Nat} {c : OperandClass} (hc : opcodeMap opc = some c)
    (ha : ia < 2 ^ 4) (hb : ib < 2 ^ 4) (hi : inst < 2 ^ 4) :
    decode numInst (enc opc ia ib inst) = readOperands numInst (enc opc ia ib inst) c ∧
      iaField (enc opc ia ib inst) = ia ∧ ibField (enc opc ia ib inst) = ib ∧
      instField (enc opc ia ib inst) = inst := by
  obtain ⟨h0, ho⟩ := opcodeMap_bounds hc
  obtain ⟨hopc, hia, hib, hinst, hres⟩ := enc_fields ho ha hb hi
  refine ⟨?_, hia, hib, hinst⟩
  simp [decode, encode_ne_zero h0 ho ha hb hi, hopc, h0, hc, hres]

section
variable {numInst opc : Nat} (ia ib : ByteIndex) (inst : InstIndex)

theorem decode_enc_none {i : Instr} (hc : opcodeMap opc = some (.none i)) :
    decode numInst (enc opc 0 0 0) = .ok i := by
  obtain ⟨hd, hia, hib, hinst⟩ := decode_enc (numInst := numInst) hc
    (Nat.two_pow_pos 4) (Nat.two_pow_pos 4) (Nat.two_pow_pos 4)
  simp [hd, readOperands, hia, hib, hinst]

theorem decode_enc_a {mk : ByteIndex → Instr} (hc : opcodeMap opc = some (.a mk)) :
    decode numInst (enc opc ia 0 0) = .ok (mk ia) := by
  obtain ⟨hd, hia, hib, hinst⟩ := decode_enc (numInst := numInst) hc
    (Laws.EncodedOpcode.byte_lt ia) (Nat.two_pow_pos 4) (Nat.two_pow_pos 4)
  simp [hd, readOperands, hia, hib, hinst, byteOperand_val]

theorem decode_enc_ab {mk : ByteIndex → ByteIndex → Instr} (hc : opcodeMap opc = some (.ab mk)) :
    decode numInst (enc opc ia ib 0) = .ok (mk ia ib) := by
  obtain ⟨hd, hia, hib, hinst⟩ := decode_enc (numInst := numInst) hc
    (Laws.EncodedOpcode.byte_lt ia) (Laws.EncodedOpcode.byte_lt ib) (Nat.two_pow_pos 4)
  simp [hd, readOperands, hia, hib, hinst, byteOperand_val]

theorem decode_enc_abInst {mk : ByteIndex → ByteIndex → InstIndex → Instr}
    (hc : opcodeMap opc = some (.abInst mk)) (hlt : inst.val < numInst) :
    decode numInst (enc opc ia ib inst) = .ok (mk ia ib inst) := by
  obtain ⟨hd, hia, hib, hinst⟩ := decode_enc (numInst := numInst) hc
    (Laws.EncodedOpcode.byte_lt ia) (Laws.EncodedOpcode.byte_lt ib) inst.isLt
  simp [hd, readOperands, hia, hib, hinst, byteOperand_val, rainOperand_val inst hlt]

theorem decode_enc_inst {mk : InstIndex → Instr} (hc : opcodeMap opc = some (.inst mk))
    (hlt : inst.val < numInst) : decode numInst (enc opc 0 0 inst) = .ok (mk inst) := by
  obtain ⟨hd, hia, hib, hinst⟩ := decode_enc (numInst := numInst) hc
    (Nat.two_pow_pos 4) (Nat.two_pow_pos 4) inst.isLt
  simp [hd, readOperands, hia, hib, hinst, rainOperand_val inst hlt]

end

/-- A well-formed command is what its word decodes to, class by class (R64, R67). -/
theorem decode_encode {numInst : Nat} {i : Instr} (h : i.wellFormed numInst = true) :
    decode numInst (encode i) = .ok i := by
  cases i with
  | nop => rfl
  | val5 | valrg | valth | val592 | mtype5 => exact decode_enc_none rfl
  | wdir ia | hum ia => exact decode_enc_a ia rfl
  | temp5 ia ib | tempth ia ib | temp592 ia ib | wspd ia ib | rain14 ia ib | rgtotal ia ib =>
    exact decode_enc_ab ia ib rfl
  | rdelta ia ib inst => exact decode_enc_abInst ia ib inst rfl (of_decide_eq_true h)
  | rclr inst => exact decode_enc_inst inst rfl (of_decide_eq_true h)

end Sys2Proof

namespace Sys2Proof.Machine

/-! ### The step by its oldest pending access -/

section
variable {s : State} {a : RegAddr} {v : Word} {rest : List HostEvent}

theorem step_of_pending_nil (h : s.pending = []) : step s = .next s := by
  simp [step, h]

/-- Which access stands next does not show in any register (R53). -/
theorem hostRead_pending (a : RegAddr) (s : State) (l : List HostEvent) :
    hostRead a { s with pending := l } = hostRead a s := by
  unfold hostRead
  cases regAt a <;> rfl

theorem step_of_pending_read (h : s.pending = .read a :: rest) :
    step s = .next { s with pending := rest, readData := some (hostRead a s) } := by
  simp [step, h, perform, hostRead_pending]

theorem step_of_pending_write (h : s.pending = .write a v :: rest) :
    step s = hostWrite a v { s with pending := rest, readData := none } := by
  simp [step, h, perform]

end

/-- An address that names CMD is 0x00 (R42). -/
theorem toNat_of_regAt_cmd {a : RegAddr} (h : regAt a = .cmd) : a.toNat = 0x00 := by
  unfold regAt at h
  split_ifs at h with h0
  rw [h0]
  rfl

/-! ### A host access by the register its address names -/

section
variable {s : State} {a : RegAddr} (v : Word)

theorem hostRead_of_regAt {r : RegName} (h : regAt a = r) : hostRead a s = readReg s r := by
  rw [hostRead, h]

theorem hostWrite_cmd : hostWrite 0x00#8 v s = writeCmd v s := rfl

theorem hostWrite_of_frame {i : ByteIndex} (h : regAt a = .frame i) :
    hostWrite a v s = .next (writeFrame i v s) := by
  simp [hostWrite, h]

theorem hostWrite_of_bitlen (h : regAt a = .bitlen) : hostWrite a v s = .next (writeBitlen v s) := by
  simp [hostWrite, h]

/-- A write to a register that is neither CMD nor a row register is ignored (R43, R46). -/
theorem hostWrite_of_ignored (hcmd : regAt a ≠ .cmd) (hbitlen : regAt a ≠ .bitlen)
    (hframe : ∀ i, regAt a ≠ .frame i) : hostWrite a v s = .next s := by
  unfold hostWrite
  cases h : regAt a <;> simp_all

end

/-- An entry of the baseline file reads as BVAL with BV at bit 16 (R48). -/
theorem rbaseWord_some_toNat (e : RainEntry) :
    (rbaseWord (some e)).toNat = e.bval.toNat + e.bv.toNat * 2 ^ 16 := by
  simp only [rbaseWord, toNat_append_eq_add, BitVec.toNat_ofBool, BitVec.toNat_ofNat]
  omega

/-- The low `m` bits of a word, zero-extended, are its remainder by `2 ^ m`. -/
theorem setWidth_setWidth_eq_ofNat {n : Nat} (x : BitVec n) (m k : Nat) :
    (x.setWidth m).setWidth k = BitVec.ofNat k (x.toNat % 2 ^ m) := by
  rw [← BitVec.toNat_setWidth, BitVec.ofNat_toNat]

/-! ### The register map, read and written -/

/-- Settles O10: the word is the one of the register that the address names. -/
theorem readServesRegisterMap : Obligations.ReadServesRegisterMap := by
  intro s a rest hp
  obtain ⟨hcmd, hstatus, hresult0, hresult1, hbitlen, hframe, hnb, hrbase, hreserved⟩ := regAt_spec a
  refine ⟨hostRead a s, step_of_pending_read hp, fun h => ?_, fun h => ?_, fun h => ?_, fun h => ?_,
    fun h => ?_, fun i h => ?_, fun i h => ?_, fun i h => ⟨fun e he => ?_, fun hlen => ?_⟩, fun h => ?_⟩
  · exact hostRead_of_regAt (hcmd h)
  · exact hostRead_of_regAt (hstatus h)
  · exact hostRead_of_regAt (hresult0 h)
  · exact hostRead_of_regAt (hresult1 h)
  · rw [hostRead_of_regAt (hbitlen h)]
    exact BitVec.toNat_setWidth_of_le (by decide)
  · rw [hostRead_of_regAt (hframe i h)]
    exact BitVec.toNat_setWidth_of_le (by decide)
  · rw [hostRead_of_regAt (hnb i h)]
    exact BitVec.toNat_setWidth_of_le (by decide)
  · rw [hostRead_of_regAt (hrbase i h), readReg, he]
    exact rbaseWord_some_toNat e
  · rw [hostRead_of_regAt (hrbase i h), readReg, List.getElem?_eq_none hlen]
    rfl
  · rw [hostRead_of_regAt (hreserved h)]
    rfl

/-- Settles O12: the write is the one of the register that the address names. -/
theorem writeServesRegisterMap : Obligations.WriteServesRegisterMap := by
  intro s a v rest hp
  obtain ⟨-, -, -, -, hbitlen, hframe, -⟩ := regAt_spec a
  rw [step_of_pending_write hp]
  refine ⟨fun i h => ?_, fun h => ?_, fun h => ?_⟩
  · rw [hostWrite_of_frame v (hframe i h), BitVec.ofNat_toNat]
    rfl
  · rw [hostWrite_of_bitlen v (hbitlen h), BitVec.ofNat_toNat]
    rfl
  · refine hostWrite_of_ignored v (fun hreg => ?_) (fun hreg => ?_) (fun i hreg => ?_)
    · have haddr := toNat_of_regAt_cmd hreg
      omega
    · have haddr := toNat_of_regAt_bitlen hreg
      omega
    · have haddr := toNat_of_regAt_frame hreg
      have hlt := i.isLt
      omega

/-- A write whose address is then read back runs in two steps, and the read sees what the write left. -/
theorem runs_write_read {s u : State} {a : RegAddr} {v : Word} {rest : List HostEvent}
    (hp : s.pending = .write a v :: .read a :: rest)
    (hw : hostWrite a v { s with pending := .read a :: rest, readData := none } = .next u)
    (hu : u.pending = .read a :: rest) :
    Runs 2 s { u with pending := rest, readData := some (hostRead a u) } :=
  ⟨u, (step_of_pending_write hp).trans hw, _, step_of_pending_read hu, rfl⟩

/-- Settles O14: the second step reads the register that the first one wrote. -/
theorem frameAndBitlenReadBackLowBits : Obligations.FrameAndBitlenReadBackLowBits := by
  intro s v rest
  refine ⟨fun a i ha hp => ?_, fun hp => ?_⟩
  · obtain ⟨-, -, -, -, -, hframe, -⟩ := regAt_spec a
    have hreg := hframe i ha
    refine ⟨_, runs_write_read hp (hostWrite_of_frame v hreg) rfl, rfl, ?_, ?_, fun j hj => ?_⟩
    · rw [hostRead_of_regAt hreg, ← setWidth_setWidth_eq_ofNat]
      simp [readReg]
    · simp
    · exact get_set_other _ _ _ _ hj
  · refine ⟨_, runs_write_read hp (hostWrite_of_bitlen v rfl) rfl, rfl, ?_, ?_⟩
    · rw [hostRead_of_regAt rfl, ← setWidth_setWidth_eq_ofNat]
      rfl
    · exact BitVec.toNat_setWidth 16 v

/-! ### Commands -/

/-- Settles O6: the write is one to CMD, and the decoder accepts its word. -/
theorem stepRunsDecodedCommand : Obligations.StepRunsDecodedCommand := by
  intro s v rest i hp hd
  rw [step_of_pending_write hp, hostWrite_cmd]
  exact writeCmd_ok hd

/-- `withFetchWord` puts the write of that very word before the host's other accesses. -/
theorem withFetchWord_pending (s : State) (w : Word) :
    (s.withFetchWord 32 w.toNat).pending = .write 0x00#8 w :: s.pending := by
  rw [State.withFetchWord, Nat.mod_eq_of_lt w.isLt, BitVec.ofNat_toNat, BitVec.setWidth_eq]

/-- Settles O7: the placed word decodes to the command, and the step takes the placed write off again. -/
theorem placedCommandRunsNext : Obligations.PlacedCommandRunsNext := by
  intro s i hwf
  exact stepRunsDecodedCommand _ _ _ i (withFetchWord_pending s (encode i)) (decode_encode hwf)

/-- Settles O9: the step's first equation. -/
theorem idleBlockWaits : Obligations.IdleBlockWaits := fun _ => step_of_pending_nil

/-- Settles O13: the address names no register, so the read is of 0 and the write is ignored. -/
theorem reservedAddressReadsZeroAndIgnoresWrites :
    Obligations.ReservedAddressReadsZeroAndIgnoresWrites := by
  intro s a v rest ha
  obtain ⟨-, -, -, -, -, -, -, -, hreserved⟩ := regAt_spec a
  have hreg := hreserved ha
  refine ⟨fun hp => ?_, fun hp => ?_⟩
  · rw [step_of_pending_read hp, hostRead_of_regAt hreg]
    rfl
  · rw [step_of_pending_write hp]
    exact hostWrite_of_ignored v (by simp [hreg]) (by simp [hreg]) (by simp [hreg])

end Sys2Proof.Machine

namespace Sys2Proof

/-! ### A word and its fields (R61) -/

theorem opcField_lt (w : Word) : opcField w < 2 ^ 8 := (w.extractLsb' 0 8).isLt
theorem iaField_lt (w : Word) : iaField w < 2 ^ 4 := (w.extractLsb' 8 4).isLt
theorem ibField_lt (w : Word) : ibField w < 2 ^ 4 := (w.extractLsb' 12 4).isLt
theorem instField_lt (w : Word) : instField w < 2 ^ 4 := (w.extractLsb' 16 4).isLt

section
variable {w v : Word}

/-- A word is determined by its five fields (R61). -/
theorem word_eq_iff_fields : w = v ↔ opcField w = opcField v ∧ resField w = resField v ∧
    iaField w = iaField v ∧ ibField w = ibField v ∧ instField w = instField v := by
  refine ⟨by rintro rfl; simp, fun ⟨hopc, hres, hia, hib, hinst⟩ => BitVec.eq_of_toNat_eq ?_⟩
  rw [word_eq_fields w, word_eq_fields v, hopc, hia, hib, hinst, hres]

/-- A word with RES = 0 is the encoding of its other four fields (R67). -/
theorem enc_of_fields (hres : resField w = 0) :
    enc (opcField w) (iaField w) (ibField w) (instField w) = w := by
  obtain ⟨hopc, hia, hib, hinst, hres'⟩ :=
    enc_fields (opcField_lt w) (iaField_lt w) (ibField_lt w) (instField_lt w)
  exact word_eq_iff_fields.mpr ⟨hopc, hres'.trans hres.symm, hia, hib, hinst⟩

/-- The word 0 is the one with every field 0. -/
theorem word_eq_zero_iff : w = 0#32 ↔
    opcField w = 0 ∧ resField w = 0 ∧ iaField w = 0 ∧ ibField w = 0 ∧ instField w = 0 := by
  constructor
  · rintro rfl
    decide
  · rintro ⟨hopc, hres, hia, hib, hinst⟩
    rw [← enc_of_fields hres, hopc, hia, hib, hinst]
    rfl

end

/-! ### The words the decoder accepts, by operand class (R63, R64) -/

/-- The opcode map of R63 with NOP in it: NOP is opcode 0x00 with no operands. -/
def operandClass : Nat → Option OperandClass
  | 0 => some (.none .nop)
  | opc => opcodeMap opc

/-- R64: the operand fields that a class does not use are 0. -/
def OperandClass.UnusedZero (w : Word) : OperandClass → Prop
  | .none _ => iaField w = 0 ∧ ibField w = 0 ∧ instField w = 0
  | .a _ => ibField w = 0 ∧ instField w = 0
  | .ab _ => instField w = 0
  | .abInst _ => True
  | .inst _ => iaField w = 0 ∧ ibField w = 0

/-- `i` is the command that a class makes of the operands in `w`, which are all legal (R62). -/
def OperandClass.Builds (numInst : Nat) (w : Word) (i : Instr) : OperandClass → Prop
  | .none j => j = i
  | .a mk => ∃ ia, byteOperand (iaField w) = .ok ia ∧ mk ia = i
  | .ab mk => ∃ ia ib, byteOperand (iaField w) = .ok ia ∧ byteOperand (ibField w) = .ok ib ∧ mk ia ib = i
  | .abInst mk => ∃ ia ib inst, byteOperand (iaField w) = .ok ia ∧ byteOperand (ibField w) = .ok ib ∧
      rainOperand numInst (instField w) = .ok inst ∧ mk ia ib inst = i
  | .inst mk => ∃ inst, rainOperand numInst (instField w) = .ok inst ∧ mk inst = i

/-- The operands of `w` that a class uses are in the ranges of R62. -/
def OperandClass.InRange (numInst : Nat) (w : Word) : OperandClass → Prop
  | .none _ => True
  | .a _ => iaField w ≤ 8
  | .ab _ => iaField w ≤ 8 ∧ ibField w ≤ 8
  | .abInst _ => iaField w ≤ 8 ∧ ibField w ≤ 8 ∧ instField w < numInst
  | .inst _ => instField w < numInst

/-- `i` is a well-formed command whose word is made of these field values (R67). -/
def Instr.IsEncodedAs (numInst : Nat) (i : Instr) (opc ia ib inst : Nat) : Prop :=
  opcodeOf i = opc ∧ encode i = enc opc ia ib inst ∧ i.wellFormed numInst = true

/-- The commands of a class are encoded with the opcode `opc` and their own operands. -/
def OperandClass.EncodesWith (numInst opc : Nat) : OperandClass → Prop
  | .none i => i.IsEncodedAs numInst opc 0 0 0
  | .a mk => ∀ ia : ByteIndex, (mk ia).IsEncodedAs numInst opc ia 0 0
  | .ab mk => ∀ ia ib : ByteIndex, (mk ia ib).IsEncodedAs numInst opc ia ib 0
  | .abInst mk => ∀ (ia ib : ByteIndex) (inst : InstIndex), inst.val < numInst →
      (mk ia ib inst).IsEncodedAs numInst opc ia ib inst
  | .inst mk => ∀ inst : InstIndex, inst.val < numInst → (mk inst).IsEncodedAs numInst opc 0 0 inst

section
variable {numInst opc : Nat} {w : Word} {i : Instr} {c : OperandClass}

theorem operandClass_of_ne_zero (h : opc ≠ 0) : operandClass opc = opcodeMap opc := by
  cases opc with
  | zero => exact absurd rfl h
  | succ _ => rfl

/-- The rows of R63 and of R67's encoder agree, opcode by opcode. -/
theorem operandClass_encodesWith (h : operandClass opc = some c) : c.EncodesWith numInst opc := by
  unfold operandClass opcodeMap at h
  split at h
  · cases h
    exact ⟨rfl, rfl, rfl⟩
  · split at h <;> cases h
    all_goals
      simp [OperandClass.EncodesWith, Instr.IsEncodedAs, encode, opcodeOf, Instr.wellFormed]

/-- A guarded check passes exactly when its condition holds and what it guards passes. -/
theorem ite_error_eq_ok_iff {p : Prop} [Decidable p] {r : Except IllegalWord Instr} {e : IllegalWord} :
    (if p then r else .error e) = .ok i ↔ p ∧ r = .ok i := by
  by_cases hp : p <;> simp [hp]

/-- What a class reads from a word: the check of R64, and the command it makes. -/
theorem readOperands_ok_iff :
    readOperands numInst w c = .ok i ↔ c.UnusedZero w ∧ c.Builds numInst w i := by
  cases c with
  | none j => simp [readOperands, ite_error_eq_ok_iff, OperandClass.UnusedZero, OperandClass.Builds]
  | a mk =>
    cases hia : byteOperand (iaField w) <;>
      simp [readOperands, ite_error_eq_ok_iff, OperandClass.UnusedZero, OperandClass.Builds, hia]
  | ab mk =>
    cases hia : byteOperand (iaField w) <;> cases hib : byteOperand (ibField w) <;>
      simp [readOperands, ite_error_eq_ok_iff, OperandClass.UnusedZero, OperandClass.Builds, hia, hib]
  | abInst mk =>
    cases hia : byteOperand (iaField w) <;> cases hib : byteOperand (ibField w) <;>
      cases hinst : rainOperand numInst (instField w) <;>
      simp [readOperands, OperandClass.UnusedZero, OperandClass.Builds, hia, hib, hinst]
  | inst mk =>
    cases hinst : rainOperand numInst (instField w) <;>
      simp [readOperands, ite_error_eq_ok_iff, OperandClass.UnusedZero, OperandClass.Builds, hinst]

theorem exists_byteOperand_ok_iff {n : Nat} : (∃ ia, byteOperand n = .ok ia) ↔ n ≤ 8 := by
  simp [byteOperand_ok, Fin.exists_iff, Nat.lt_succ_iff]

theorem exists_rainOperand_ok_iff :
    (∃ inst, rainOperand numInst (instField w) = .ok inst) ↔ instField w < numInst := by
  simp only [rainOperand_ok, Fin.exists_iff]
  exact ⟨fun ⟨_, _, _, hlt⟩ => hlt, fun hlt => ⟨_, instField_lt w, rfl, hlt⟩⟩

/-- A class makes a command of a word exactly when the operands it uses are in range. -/
theorem exists_builds_iff : (∃ i, c.Builds numInst w i) ↔ c.InRange numInst w := by
  cases c <;>
    simp [OperandClass.Builds, OperandClass.InRange, ← exists_byteOperand_ok_iff,
      ← exists_rainOperand_ok_iff]

/-- R64 whole: the class of the word's opcode, RES = 0, the unused fields 0, and the operands legal. -/
theorem decode_ok_iff : decode numInst w = .ok i ↔ ∃ c, operandClass (opcField w) = some c ∧
    resField w = 0 ∧ c.UnusedZero w ∧ c.Builds numInst w i := by
  by_cases hw : w = 0#32
  · have hd : decode numInst w = .ok .nop := by rw [hw]; rfl
    obtain ⟨hopc, hres, hfields⟩ := word_eq_zero_iff.mp hw
    simp [hd, hopc, hres, hfields, operandClass, OperandClass.UnusedZero, OperandClass.Builds]
  by_cases hopc : opcField w = 0
  · refine iff_of_false (by simp [decode, hw, hopc]) ?_
    rintro ⟨c, hc, hres, hunused, -⟩
    rw [hopc] at hc
    cases hc
    exact hw (word_eq_zero_iff.mpr ⟨hopc, hres, hunused⟩)
  · rw [operandClass_of_ne_zero hopc]
    cases hc : opcodeMap (opcField w) with
    | none => simp [decode, hw, hopc, hc]
    | some c =>
      simp only [decode, hw, hopc, hc, if_false, Option.some.injEq, exists_eq_left', ite_not,
        ite_error_eq_ok_iff, readOperands_ok_iff]

/-- The command that an accepted word decodes to is encoded with the word's own fields. -/
theorem isEncodedAs_of_decode (h : decode numInst w = .ok i) :
    i.IsEncodedAs numInst (opcField w) (iaField w) (ibField w) (instField w) := by
  obtain ⟨c, hc, -, hunused, hbuilds⟩ := decode_ok_iff.mp h
  have henc := operandClass_encodesWith (numInst := numInst) hc
  cases c with
  | none j =>
    obtain ⟨hia, hib, hinst⟩ := hunused
    obtain rfl := hbuilds
    rw [hia, hib, hinst]
    exact henc
  | a mk =>
    obtain ⟨hib, hinst⟩ := hunused
    obtain ⟨ia, hia, rfl⟩ := hbuilds
    rw [byteOperand_ok.mp hia, hib, hinst]
    exact henc ia
  | ab mk =>
    obtain ⟨ia, ib, hia, hib, rfl⟩ := hbuilds
    rw [byteOperand_ok.mp hia, byteOperand_ok.mp hib, hunused]
    exact henc ia ib
  | abInst mk =>
    obtain ⟨ia, ib, inst, hia, hib, hinst, rfl⟩ := hbuilds
    obtain ⟨hinst, hlt⟩ := rainOperand_ok.mp hinst
    rw [byteOperand_ok.mp hia, byteOperand_ok.mp hib, hinst]
    exact henc ia ib inst (hinst ▸ hlt)
  | inst mk =>
    obtain ⟨hia, hib⟩ := hunused
    obtain ⟨inst, hinst, rfl⟩ := hbuilds
    obtain ⟨hinst, hlt⟩ := rainOperand_ok.mp hinst
    rw [hia, hib, hinst]
    exact henc inst (hinst ▸ hlt)

/-- The accepted words, without naming the command. -/
theorem exists_decode_ok_iff : (∃ i, decode numInst w = .ok i) ↔ ∃ c,
    operandClass (opcField w) = some c ∧ resField w = 0 ∧ c.UnusedZero w ∧ c.InRange numInst w := by
  simp only [decode_ok_iff, ← exists_builds_iff, ← exists_and_left]
  exact exists_comm

/-- `legalWord` speaks of the decoder's own fields. -/
theorem legalWord_iff_fields : Machine.legalWord numInst w = true ↔
    w = 0#32 ∨ resField w = 0 ∧
      (opcField w ∈ [0x01, 0x02, 0x03, 0x04, 0x10] ∧ iaField w = 0 ∧ ibField w = 0 ∧ instField w = 0 ∨
        opcField w ∈ [0x15, 0x16] ∧ iaField w ≤ 8 ∧ ibField w = 0 ∧ instField w = 0 ∨
        opcField w ∈ [0x11, 0x12, 0x13, 0x14, 0x17, 0x18] ∧ iaField w ≤ 8 ∧ ibField w ≤ 8 ∧
          instField w = 0 ∨
        opcField w = 0x20 ∧ iaField w ≤ 8 ∧ ibField w ≤ 8 ∧ instField w < numInst ∨
        opcField w = 0x21 ∧ iaField w = 0 ∧ ibField w = 0 ∧ instField w < numInst) := by
  simp only [Machine.legalWord, ← opcField_eq, ← iaField_eq, ← ibField_eq, ← instField_eq,
    ← resField_eq, Bool.or_eq_true, Bool.and_eq_true, decide_eq_true_eq, or_assoc]

end

/-! ### The round trip and the legal words -/

/-- Settles O1: the class of the command's opcode reads back the operands that were encoded. -/
theorem decodeInvertsEncode : Obligations.DecodeInvertsEncode := fun _ _ => decode_encode

/-- Settles O2: the command has the fields of the word, and the word has no other bits. -/
theorem encodeInvertsDecode : Obligations.EncodeInvertsDecode := by
  intro n w i h
  obtain ⟨-, -, hres, -, -⟩ := decode_ok_iff.mp h
  obtain ⟨-, henc, hwf⟩ := isEncodedAs_of_decode h
  exact ⟨henc.trans (enc_of_fields hres), hwf⟩

/-- Settles O3: for each opcode, R64's clause is what its class asks of the operands. -/
theorem decodeAcceptsExactlyLegalWords : Obligations.DecodeAcceptsExactlyLegalWords := by
  intro n w
  rw [exists_decode_ok_iff, legalWord_iff_fields, word_eq_zero_iff]
  generalize opcField w = opc
  unfold operandClass opcodeMap
  split
  · simp [OperandClass.UnusedZero, OperandClass.InRange]
  · split
    all_goals
      simp only [reduceCtorEq, false_and, exists_false, Option.some.injEq, exists_eq_left',
        List.mem_cons, List.not_mem_nil, or_false, OperandClass.UnusedZero, OperandClass.InRange]
      grind

/-- Settles O4, by running the decoder on the nine words. -/
theorem writtenOutWordsDecode : Obligations.WrittenOutWordsDecode :=
  ⟨rfl, rfl, rfl, rfl, rfl, rfl, rfl, rfl, rfl⟩

/-! ### The pattern table (R66) -/

/-- The mask of R66 for a class: every bit but those of the operand fields that the class uses. -/
def OperandClass.mask : OperandClass → Word
  | .none _ => 0xFFFFFFFF
  | .a _ => 0xFFFFF0FF
  | .ab _ => 0xFFFF00FF
  | .abInst _ => 0xFFF000FF
  | .inst _ => 0xFFF0FFFF

/-- A masked word is a bare opcode when its opcode is that one and no other bit is kept. -/
theorem and_mask_eq_enc_iff {w : Word} {c : OperandClass} {opc : Nat} (hlt : opc < 2 ^ 8) :
    w &&& c.mask = enc opc 0 0 0 ↔ opcField w = opc ∧ resField w = 0 ∧ c.UnusedZero w := by
  obtain ⟨hopc, hia, hib, hinst, hres⟩ :=
    enc_fields hlt (Nat.two_pow_pos 4) (Nat.two_pow_pos 4) (Nat.two_pow_pos 4)
  have h4 (x : BitVec 4) : x &&& 0xF#4 = x := BitVec.and_allOnes
  have h8 (x : BitVec 8) : x &&& 0xFF#8 = x := BitVec.and_allOnes
  have h12 (x : BitVec 12) : x &&& 0xFFF#12 = x := BitVec.and_allOnes
  rw [word_eq_iff_fields, hopc, hia, hib, hinst, hres]
  cases c <;>
    simp [OperandClass.mask, OperandClass.UnusedZero, opcField, iaField, ibField, instField, resField,
      BitVec.extractLsb'_and, h4, h8, h12, -BitVec.extractLsb'_toNat]

/-- Each row of R66 matches the bare word of an opcode, under the mask of that opcode's class. -/
theorem patternTable_match_mask : ∀ row ∈ patternTable,
    row.2.1.toNat < 2 ^ 8 ∧ enc row.2.1.toNat 0 0 0 = row.2.1 ∧
      (operandClass row.2.1.toNat).map OperandClass.mask = some row.2.2 := by
  decide

/-- No two rows of R66 share a mnemonic or an opcode. -/
theorem patternTable_mnemonic_inj : ∀ row ∈ patternTable, ∀ row' ∈ patternTable,
    (row.1 = row'.1 ↔ row.2.1.toNat = row'.2.1.toNat) := by
  decide

theorem exists_patternTable_row (i : Instr) :
    ∃ row ∈ patternTable, row.1 = i.mnemonic ∧ row.2.1.toNat = opcodeOf i := by
  cases i <;> simp [patternTable, Instr.mnemonic, opcodeOf]

section
variable {w : Word} {row : String × Word × Word} (h : row ∈ patternTable)
include h

/-- A row is a command's own exactly when it has the command's opcode. -/
theorem row_mnemonic_iff (i : Instr) : row.1 = i.mnemonic ↔ row.2.1.toNat = opcodeOf i := by
  obtain ⟨row', hrow', hname, hopc⟩ := exists_patternTable_row i
  rw [← hname, ← hopc]
  exact patternTable_mnemonic_inj row h row' hrow'

/-- What it takes to match a row: R64's conditions but the ranges of the operands. -/
theorem row_matches_iff : ∃ c, operandClass row.2.1.toNat = some c ∧
    (w &&& row.2.2 = row.2.1 ↔ opcField w = row.2.1.toNat ∧ resField w = 0 ∧ c.UnusedZero w) := by
  obtain ⟨hlt, henc, hmask⟩ := patternTable_match_mask row h
  obtain ⟨c, hc, hmask⟩ := Option.map_eq_some_iff.mp hmask
  refine ⟨c, hc, ?_⟩
  rw [← hmask, ← and_mask_eq_enc_iff hlt, henc]

/-- An accepted word matches the row of its command and no other. -/
theorem row_matches_iff_of_decode {n : Nat} {i : Instr} (hd : decode n w = .ok i) :
    w &&& row.2.2 = row.2.1 ↔ row.1 = i.mnemonic := by
  obtain ⟨c, hc, hres, hunused, -⟩ := decode_ok_iff.mp hd
  obtain ⟨hopcode, -, -⟩ := isEncodedAs_of_decode hd
  obtain ⟨c', hc', hmatch⟩ := row_matches_iff (w := w) h
  rw [hmatch, row_mnemonic_iff h, hopcode]
  refine ⟨fun ⟨hopc, _⟩ => hopc.symm, fun hopc => ⟨hopc.symm, hres, ?_⟩⟩
  rw [hopc, hc] at hc'
  cases hc'
  exact hunused

end

/-- Settles O5: with the operands in range, a matching word meets all of R64, and its command names the
row. -/
theorem patternTableNamesDecodedCommand : Obligations.PatternTableNamesDecodedCommand := by
  intro n w
  refine ⟨fun i hd row hrow => row_matches_iff_of_decode hrow hd, fun row hrow hm hia hib hinst => ?_⟩
  obtain ⟨c, hc, hmatch⟩ := row_matches_iff (w := w) hrow
  obtain ⟨hopc, hres, hunused⟩ := hmatch.mp hm
  have hrange : c.InRange n w := by
    have hia : iaField w ≤ 8 := (iaField_eq w).trans_le hia
    have hib : ibField w ≤ 8 := (ibField_eq w).trans_le hib
    have hinst : instField w < n := (instField_eq w).trans_lt hinst
    cases c <;> simp [OperandClass.InRange, *]
  obtain ⟨i, hd⟩ := exists_decode_ok_iff.mpr ⟨c, hopc ▸ hc, hres, hunused, hrange⟩
  exact ⟨i, hd, ((row_matches_iff_of_decode hrow hd).mp hm).symm⟩

end Sys2Proof

namespace Sys2Proof.Machine

/-! ### Pseudo-instructions that load the row (R76) -/

section
variable {s t : State} {a : RegAddr} {v : Word} {rest : List HostEvent} {k : Nat}

/-- A run that begins with a write to a byte of FRAME. -/
theorem runs_succ_of_write_frame {i : ByteIndex} (hp : s.pending = .write a v :: rest)
    (ha : regAt a = .frame i)
    (h : Runs k (writeFrame i v { s with pending := rest, readData := none }) t) :
    Runs (k + 1) s t :=
  ⟨_, (step_of_pending_write hp).trans (hostWrite_of_frame v ha), h⟩

end

/-- Settles O15: nine writes to FRAME, each of the next byte, and one to BITLEN. -/
theorem ldrowLoadsRowAndSetblLoadsBitlen : Obligations.LdrowLoadsRowAndSetblLoadsBitlen := by
  intro s r n rest
  refine ⟨fun hp => ?_, fun hp => ?_⟩
  · refine runs_succ_of_write_frame hp rfl ?_
    iterate 8 refine runs_succ_of_write_frame rfl rfl ?_
    simp [Runs, writeFrame, Row.set]
  · refine ⟨_, (step_of_pending_write hp).trans (hostWrite_of_bitlen n rfl), ?_⟩
    simp [Runs, writeBitlen, BitVec.ofNat_toNat]

/-- Settles O55: an INST that names no entry is the first case of both commands. -/
theorem rainCommandsRejectMissingEntry : Obligations.RainCommandsRejectMissingEntry := by
  intro s ia ib inst hmissing
  have hnone : s.rain[inst.val]? = none := List.getElem?_eq_none hmissing
  constructor
  · simp [exec, execRdelta, hnone, raise, setStatus]
  · simp [exec, execRclr, hnone, raise, setStatus]

end Sys2Proof.Machine

namespace Sys2Proof.Machine

/-! ### The verdicts, one equation per clause -/

section
variable {f : Row}

theorem judge5_of_b0_zero (h0 : f.b0 = 0#8) : judge5 f = .reject .structuralMismatch 0#3 0#8 :=
  if_pos h0

theorem judge5_of_sum_eq (h0 : f.b0 ≠ 0#8) (hsum : sum8 (norm5 f) 0 6 = (norm5 f).b7) :
    judge5 f = .accept (norm5 f) .fiveInOne (sum8 (norm5 f) 0 6) := by
  rw [judge5, if_neg h0, if_pos hsum]

theorem judge5_of_sum_ne (h0 : f.b0 ≠ 0#8) (hsum : sum8 (norm5 f) 0 6 ≠ (norm5 f).b7) :
    judge5 f = .reject .checksumMismatch 0#3 (sum8 (norm5 f) 0 6) := by
  rw [judge5, if_neg h0, if_neg hsum]

theorem judgeTh_of_b5_ne_zero (h5 : f.b5 ≠ 0#8) : judgeTh f = .reject .structuralMismatch 0#3 0#8 :=
  if_pos h5

theorem judgeTh_of_bad_sum (h5 : f.b5 = 0#8) (hsum : sum8 f 0 3 = 0#8 ∨ sum8 f 0 3 ≠ f.b4) :
    judgeTh f = .reject .checksumMismatch 0#3 (sum8 f 0 3) := by
  rw [judgeTh, if_neg (not_not_intro h5)]
  by_cases hzero : sum8 f 0 3 = 0#8
  · rw [if_pos hzero]
  · rw [if_neg hzero, if_pos (hsum.resolve_left hzero)]

theorem judgeTh_of_sum_eq (h5 : f.b5 = 0#8) (hzero : sum8 f 0 3 ≠ 0#8) (hsum : sum8 f 0 3 = f.b4) :
    judgeTh f = .accept f .basicTh (sum8 f 0 3) := by
  rw [judgeTh, if_neg (not_not_intro h5), if_neg hzero, if_neg (not_not_intro hsum)]

section
variable {p : ParitySense} {n : BitVec 16}

theorem judge592_of_bitlen_zero (hn : n = 0#16) :
    judge592 p n f = .reject .skippedBitlen 0#3 0#8 :=
  if_pos hn

theorem judge592_of_bad_structure (hn : n ≠ 0#16) (h07 : f.b0 = 0#8 ∨ f.b7 ≠ 0#8) :
    judge592 p n f = .reject .structuralMismatch 0#3 0#8 := by
  rw [judge592, if_neg hn, if_pos h07]

theorem judge592_of_sum_ne (hn : n ≠ 0#16) (h0 : f.b0 ≠ 0#8) (h7 : f.b7 = 0#8)
    (hsum : sum8 f 0 5 ≠ f.b6) : judge592 p n f =
      .reject .checksumMismatch (parityFailures p f.b3 f.b4 f.b5) (sum8 f 0 5) := by
  rw [judge592, if_neg hn, if_neg (not_or_intro h0 (not_not_intro h7)), if_pos hsum]

theorem judge592_of_parity_failure (hn : n ≠ 0#16) (h0 : f.b0 ≠ 0#8) (h7 : f.b7 = 0#8)
    (hsum : sum8 f 0 5 = f.b6) (hpf : parityFailures p f.b3 f.b4 f.b5 ≠ 0#3) : judge592 p n f =
      .reject .parityMismatch (parityFailures p f.b3 f.b4 f.b5) (sum8 f 0 5) := by
  rw [judge592, if_neg hn, if_neg (not_or_intro h0 (not_not_intro h7)), if_neg (not_not_intro hsum),
    if_pos hpf]

theorem judge592_of_sum_eq (hn : n ≠ 0#16) (h0 : f.b0 ≠ 0#8) (h7 : f.b7 = 0#8)
    (hsum : sum8 f 0 5 = f.b6) (hpf : parityFailures p f.b3 f.b4 f.b5 = 0#3) :
    judge592 p n f = .accept f .parity592 (sum8 f 0 5) := by
  rw [judge592, if_neg hn, if_neg (not_or_intro h0 (not_not_intro h7)), if_neg (not_not_intro hsum),
    if_neg (not_not_intro hpf)]

end

end

/-! ### What a validator does, from its verdict -/

section
variable {s : State} {v : Verdict}

theorem exec_val5 (h : judge5 s.frame = v) : exec .val5 s = .next (conclude v s) := h ▸ rfl

theorem exec_valrg (h : judgeRg s.frame = v) : exec .valrg s = .next (conclude v s) := h ▸ rfl

theorem exec_valth (h : judgeTh s.frame = v) : exec .valth s = .next (conclude v s) := h ▸ rfl

theorem exec_val592 (h : judge592 s.paritySense s.bitlen s.frame = v) :
    exec .val592 s = .next (conclude v s) := h ▸ rfl

end

/-! ### Sums and parity masks as numbers -/

section
variable {w k : Nat} {x : BitVec w}

/-- A bit vector is the encoding of its own number. -/
theorem ofNat_of_toNat_eq (h : x.toNat = k) : BitVec.ofNat w k = x := by
  rw [← h, BitVec.ofNat_toNat, BitVec.setWidth_eq]

/-- Comparing the numbers of two bit vectors is comparing them. -/
theorem eq_toNat_iff_of_toNat_eq (h : x.toNat = k) (y : BitVec w) : k = y.toNat ↔ x = y := by
  rw [← h, BitVec.toNat_inj]

end

section
variable (r : Row)

theorem sum8_0_6_toNat : (sum8 r 0 6).toNat = (r.b0.toNat + r.b1.toNat + r.b2.toNat + r.b3.toNat +
    r.b4.toNat + r.b5.toNat + r.b6.toNat) % 256 := by
  rw [sum8_0_6, BitVec.toNat_ofNat]

theorem sum8_0_3_toNat : (sum8 r 0 3).toNat = (r.b0.toNat + r.b1.toNat + r.b2.toNat +
    r.b3.toNat) % 256 := by
  rw [sum8_0_3, BitVec.toNat_ofNat]

theorem sum8_0_5_toNat : (sum8 r 0 5).toNat = (r.b0.toNat + r.b1.toNat + r.b2.toNat + r.b3.toNat +
    r.b4.toNat + r.b5.toNat) % 256 := by
  rw [sum8_0_5, BitVec.toNat_ofNat]

end

/-- The mask of R94 as a number: each failing byte adds its own power of two. -/
theorem parityFailures_toNat (p : ParitySense) (b3 b4 b5 : Byte) :
    (parityFailures p b3 b4 b5).toNat = (if parOk p b3 then 0 else 1) +
      2 * (if parOk p b4 then 0 else 1) + 4 * (if parOk p b5 then 0 else 1) := by
  unfold parityFailures
  cases parOk p b3 <;> cases parOk p b4 <;> cases parOk p b5 <;> rfl

/-! ### The validators on every row -/

/-- Settles O33, clause by clause: the row written out is `norm5` of FRAME. -/
theorem val5Result : Obligations.Val5Result := by
  intro s f t sum
  have hnum : (sum8 t 0 6).toNat = sum := sum8_0_6_toNat t
  have hsum : sum = t.b7.toNat ↔ sum8 t 0 6 = t.b7 := eq_toNat_iff_of_toNat_eq hnum t.b7
  rw [ofNat_of_toNat_eq hnum]
  exact ⟨rfl, fun h0 => exec_val5 (judge5_of_b0_zero h0),
    fun h0 hs => exec_val5 (judge5_of_sum_eq h0 (hsum.mp hs)),
    fun h0 hs => exec_val5 (judge5_of_sum_ne h0 (mt hsum.mpr hs))⟩

/-- Settles O34: the pattern on the numbers is the one on the bytes. -/
theorem valrgResult : Obligations.ValrgResult := by
  intro s f pattern
  have hzero : ∀ b : Byte, b.toNat = 0 ↔ b = 0#8 := fun b => eq_toNat_iff_of_toNat_eq rfl 0#8
  have hpattern : pattern ↔ f.b0 ≠ 0#8 ∧ f.b1 ≠ 0#8 ∧ f.b2 ≠ 0#8 ∧ f.b3 = 0#8 ∧ f.b4 = 0#8 := by
    simp only [pattern, ne_eq, Nat.mul_eq_zero, Nat.add_eq_zero_iff, hzero, not_or, and_assoc]
  exact ⟨rfl, fun h => exec_valrg (if_pos (hpattern.mp h)),
    fun h => exec_valrg (if_neg (mt hpattern.mpr h))⟩

/-- Settles O35, clause by clause: the sum on the numbers is `sum8` of bytes 0 to 3. -/
theorem valthResult : Obligations.ValthResult := by
  intro s f sum
  have hnum : (sum8 f 0 3).toNat = sum := sum8_0_3_toNat f
  have hzero : sum = 0 ↔ sum8 f 0 3 = 0#8 := eq_toNat_iff_of_toNat_eq hnum 0#8
  have hsum : sum = f.b4.toNat ↔ sum8 f 0 3 = f.b4 := eq_toNat_iff_of_toNat_eq hnum f.b4
  rw [ofNat_of_toNat_eq hnum]
  refine ⟨rfl, fun h5 => exec_valth (judgeTh_of_b5_ne_zero h5), fun h5 hs => ?_, fun h5 hz hs => ?_⟩
  · exact exec_valth (judgeTh_of_bad_sum h5 (hs.imp hzero.mp (mt hsum.mpr)))
  · have h4 : sum8 f 0 3 = f.b4 := hsum.mp hs
    rw [← h4]
    exact exec_valth (judgeTh_of_sum_eq h5 (mt hzero.mpr hz) h4)

/-- Settles O36, clause by clause: the sum and the mask on the numbers are `sum8` of bytes 0 to 5 and
`parityFailures`. -/
theorem val592Result : Obligations.Val592Result := by
  intro s f sum bad pf
  have hnum : (sum8 f 0 5).toNat = sum := sum8_0_5_toNat f
  have hsum : sum = f.b6.toNat ↔ sum8 f 0 5 = f.b6 := eq_toNat_iff_of_toNat_eq hnum f.b6
  have hmask : (parityFailures s.paritySense f.b3 f.b4 f.b5).toNat = pf := parityFailures_toNat ..
  have hpf : pf = 0 ↔ parityFailures s.paritySense f.b3 f.b4 f.b5 = 0#3 :=
    eq_toNat_iff_of_toNat_eq hmask 0#3
  rw [ofNat_of_toNat_eq hnum, ofNat_of_toNat_eq hmask]
  exact ⟨rfl, fun hn => exec_val592 (judge592_of_bitlen_zero hn),
    fun hn h07 => exec_val592 (judge592_of_bad_structure hn h07),
    fun hn h0 h7 hs => exec_val592 (judge592_of_sum_ne hn h0 h7 (mt hsum.mpr hs)),
    fun hn h0 h7 hs hp =>
      exec_val592 (judge592_of_parity_failure hn h0 h7 (hsum.mp hs) (mt hpf.mpr hp)),
    fun hn h0 h7 hs hp => exec_val592 (judge592_of_sum_eq hn h0 h7 (hsum.mp hs) (hpf.mp hp))⟩

/-! ### The parity predicate (R81) -/

/-- One more bit turns the parity of a number over exactly when it is 1. -/
theorem add_toNat_odd (n : Nat) (b : Bool) : ((n + b.toNat) % 2 == 1) = ((n % 2 == 1) ^^ b) := by
  obtain h | h := Nat.mod_two_eq_zero_or_one n <;> cases b <;> simp [Nat.add_mod, h]

/-- A list of bits holds an odd number of ones exactly when their exclusive or is 1. -/
theorem sum_toNat_odd_eq_xor (l : List Bool) :
    ((l.map Bool.toNat).sum % 2 == 1) = l.foldr xor false := by
  induction l with
  | nil => rfl
  | cons b l ih =>
    rw [List.map_cons, List.sum_cons, Nat.add_comm, add_toNat_odd, ih, Bool.xor_comm, List.foldr_cons]

/-- The number of ones in a byte is odd exactly when the exclusive or of its bits is 1. -/
theorem popcount_odd_eq_xor (b : Byte) : (popcount b % 2 == 1) =
    (b.getLsbD 0 ^^ b.getLsbD 1 ^^ b.getLsbD 2 ^^ b.getLsbD 3 ^^ b.getLsbD 4 ^^ b.getLsbD 5 ^^
      b.getLsbD 6 ^^ b.getLsbD 7) := by
  have hbits : popcount b = (((List.range 8).map b.getLsbD).map Bool.toNat).sum := by
    rw [popcount, List.map_map]
    rfl
  rw [hbits, sum_toNat_odd_eq_xor]
  simp [List.range_succ]

/-- The ones of a byte are those of its low seven bits and bit 7. -/
theorem popcount_eq_low_add_bit7 (b : Byte) :
    popcount b = popcount (b &&& 0x7F) + (b.getLsbD 7).toNat := by
  simp [popcount, List.range_succ, Nat.add_assoc]

/-- TOTAL_ODD inverts every verdict of FLAG_ODD_COUNT (R81). -/
theorem parOk_totalOdd (b : Byte) : parOk .totalOdd b = !parOk .flagOddCount b := by
  simp only [parOk, popcount_eq_low_add_bit7 b, add_toNat_odd]
  obtain h | h := Nat.mod_two_eq_zero_or_one (popcount (b &&& 0x7F)) <;> rw [h] <;>
    cases b.getLsbD 7 <;> rfl

/-- Settles O37: TOTAL_ODD is the exclusive or of all bits, and FLAG_ODD_COUNT its negation. -/
theorem paritySensesOpposeEachOther : Obligations.ParitySensesOpposeEachOther := by
  intro b odd7
  have htotal : parOk .totalOdd b = (odd7 ^^ b.getLsbD 7) := popcount_odd_eq_xor b
  have hflag : parOk .flagOddCount b = !(odd7 ^^ b.getLsbD 7) := by
    rw [← htotal, parOk_totalOdd, Bool.not_not]
  exact ⟨hflag.trans (Bool.not_not _), htotal, parOk_totalOdd b⟩

/-! ### Accepted frames (R97) -/

section
variable {f : Row}

/-- VAL5 concludes with OK only by accepting a normalised row whose sum is its byte 7 (R84). -/
theorem judge5_of_code_ok {s : State} (h : (conclude (judge5 f) s).code = .ok) :
    sum8 (norm5 f) 0 6 = (norm5 f).b7 ∧ judge5 f = .accept (norm5 f) .fiveInOne (norm5 f).b7 := by
  obtain ⟨-, hv⟩ | ⟨-, hsum, hv⟩ | ⟨-, -, hv⟩ := judge5_cases f
  · simp [hv, conclude] at h
  · exact ⟨hsum, hsum ▸ hv⟩
  · simp [hv, conclude] at h

/-- VALTH concludes with OK only by accepting a row whose sum is its byte 4, not 0 (R89). -/
theorem judgeTh_of_code_ok {s : State} (h : (conclude (judgeTh f) s).code = .ok) :
    sum8 f 0 3 = f.b4 ∧ f.b4 ≠ 0#8 ∧ judgeTh f = .accept f .basicTh f.b4 := by
  obtain ⟨-, hv⟩ | ⟨-, -, hv⟩ | ⟨-, hzero, hsum, hv⟩ := judgeTh_cases f
  · simp [hv, conclude] at h
  · simp [hv, conclude] at h
  · exact ⟨hsum, hsum ▸ hzero, hsum ▸ hv⟩

/-- VAL592 concludes with OK only by accepting a row whose sum is its byte 6 and whose bytes 3 to 5 pass
the parity check (R92). -/
theorem judge592_of_code_ok {p : ParitySense} {n : BitVec 16} {s : State}
    (h : (conclude (judge592 p n f) s).code = .ok) :
    sum8 f 0 5 = f.b6 ∧ (parOk p f.b3 = true ∧ parOk p f.b4 = true ∧ parOk p f.b5 = true) ∧
      judge592 p n f = .accept f .parity592 f.b6 := by
  obtain ⟨-, hv⟩ | ⟨-, -, hv⟩ | ⟨-, -, -, -, hv⟩ | ⟨-, -, -, -, -, hv⟩ | ⟨-, -, -, hsum, hpf, hv⟩ :=
    judge592_cases p n f
  · simp [hv, conclude] at h
  · simp [hv, conclude] at h
  · simp [hv, conclude] at h
  · simp [hv, conclude] at h
  · exact ⟨hsum, (parityFailures_zero _ _ _ _).mp hpf, hsum ▸ hv⟩

end

/-- Settles O38: OK tells which verdict was concluded, and the verdict holds the row and the sum. -/
theorem acceptedFrameRecomputes : Obligations.AcceptedFrameRecomputes := by
  refine fun s t => ⟨fun h hok => ?_, fun h hok => ?_, fun h hok => ?_⟩ <;> cases h
  · obtain ⟨hsum, hv⟩ := judge5_of_code_ok hok
    rw [hv]
    exact ⟨(sum8_0_6_toNat _).symm.trans (congrArg BitVec.toNat hsum), rfl⟩
  · obtain ⟨hsum, hzero, hv⟩ := judgeTh_of_code_ok hok
    rw [hv]
    exact ⟨(sum8_0_3_toNat _).symm.trans (congrArg BitVec.toNat hsum), hzero, rfl⟩
  · obtain ⟨hsum, hparity, hv⟩ := judge592_of_code_ok hok
    rw [hv]
    exact ⟨(sum8_0_5_toNat _).symm.trans (congrArg BitVec.toNat hsum), rfl, hparity⟩

/-! ### A validator run again (R86) -/

/-- A validator concludes the verdict that it gives. -/
theorem Judges.exec_eq {s : State} {i : Instr} {v : Verdict} (hj : Judges s i v) :
    exec i s = .next (conclude v s) := by
  cases hj <;> rfl

/-- A validator ends by concluding its verdict. -/
theorem exists_judges_of_isValidator {i : Instr} {s t : State} (hi : isValidator i = true)
    (h : exec i s = .next t) : ∃ v, Judges s i v ∧ t = conclude v s := by
  cases i with
  | val5 => cases h; exact ⟨_, .val5, rfl⟩
  | valrg => cases h; exact ⟨_, .valrg, rfl⟩
  | valth => cases h; exact ⟨_, .valth, rfl⟩
  | val592 => cases h; exact ⟨_, .val592, rfl⟩
  | _ => cases hi

/-- A verdict is about FRAME, BITLEN and PARITY_SENSE alone (R82). -/
theorem Judges.of_same {s t : State} {i : Instr} {v : Verdict} (hj : Judges s i v)
    (hframe : t.frame = s.frame) (hbitlen : t.bitlen = s.bitlen)
    (hsense : t.paritySense = s.paritySense) : Judges t i v := by
  cases hj with
  | val5 => exact hframe ▸ .val5
  | valrg => exact hframe ▸ .valrg
  | valth => exact hframe ▸ .valth
  | val592 => exact hframe ▸ hbitlen ▸ hsense ▸ .val592

/-- A command that is no validator keeps NB (R22). -/
theorem exec_nb_of_not_isValidator {i : Instr} {s t : State} (hi : isValidator i = false)
    (h : exec i s = .next t) : t.nb = s.nb := by
  obtain ⟨-, hnb⟩ | ⟨hv, -⟩ | ⟨-, -, hnb⟩ := exec_proto_nb_cases h
  · exact hnb
  · simp [hi] at hv
  · exact hnb

/-- Settles O39: the command between keeps all that the verdict is about and NB, so the same verdict is
concluded over the same NB. -/
theorem revalidationGivesSameOutcome : Obligations.RevalidationGivesSameOutcome := by
  intro i j s t u w hi hj ht hu hw
  obtain ⟨v, hv, rfl⟩ := exists_judges_of_isValidator hi ht
  obtain ⟨hframe, hbitlen, -, hsense, -⟩ := commandsKeepHostRegistersAndParameters _ _ _ hu
  have hagain : Judges u i v := hv.of_same (hframe.trans (conclude_frame v s))
    (hbitlen.trans (conclude_bitlen v s)) (hsense.trans (conclude_paritySense v s))
  have hnb := exec_nb_of_not_isValidator hj hu
  rw [hagain.exec_eq] at hw
  cases hw
  cases v with
  | accept nb proto csum => exact ⟨rfl, rfl, rfl, rfl, rfl, rfl⟩
  | reject code parfail csum => exact ⟨hnb, rfl, rfl, rfl, rfl, rfl⟩

/-! ### What a verdict depends on (R88, R98) -/

/-- What a validator decides: PROTO and the status fields it can leave other than 0. -/
structure Decision where
  proto : Proto
  code : StatusCode
  parfail : BitVec 3
  csum : Byte

/-- The decision of a verdict: all of it but NB. -/
def Verdict.decision : Verdict → Decision
  | .accept _ proto csum => ⟨proto, .ok, 0#3, csum⟩
  | .reject code parfail csum => ⟨.none, code, parfail, csum⟩

@[simp] theorem Verdict.decision_accept (nb : Row) (proto : Proto) (csum : Byte) :
    (Verdict.accept nb proto csum).decision = ⟨proto, .ok, 0#3, csum⟩ := rfl

@[simp] theorem Verdict.decision_reject (code : StatusCode) (parfail : BitVec 3) (csum : Byte) :
    (Verdict.reject code parfail csum).decision = ⟨.none, code, parfail, csum⟩ := rfl

/-- A verdict's decision is what its conclusion leaves in PROTO and in STATUS. -/
theorem Verdict.decision_eq (v : Verdict) (s : State) : v.decision =
    ⟨(conclude v s).proto, (conclude v s).code, (conclude v s).parfail, (conclude v s).csum⟩ := by
  cases v <;> rfl

/-- Verdicts of one decision leave the same PROTO and STATUS fields, from any two states. -/
theorem conclude_congr {v d : Verdict} (h : v.decision = d.decision) (s t : State) :
    (conclude v s).proto = (conclude d t).proto ∧ (conclude v s).code = (conclude d t).code ∧
      (conclude v s).parfail = (conclude d t).parfail ∧ (conclude v s).csum = (conclude d t).csum := by
  rwa [v.decision_eq s, d.decision_eq t, Decision.mk.injEq] at h

section
variable {f g : Row}

/-- R88, R98: VALRG examines bytes 0 to 4. -/
theorem judgeRg_decision_congr (h0 : f.b0 = g.b0) (h1 : f.b1 = g.b1) (h2 : f.b2 = g.b2)
    (h3 : f.b3 = g.b3) (h4 : f.b4 = g.b4) : (judgeRg f).decision = (judgeRg g).decision := by
  simp only [judgeRg, apply_ite Verdict.decision, Verdict.decision_accept,
    Verdict.decision_reject, h0, h1, h2, h3, h4]

/-- R98: VALTH examines bytes 0 to 5. -/
theorem judgeTh_decision_congr (h0 : f.b0 = g.b0) (h1 : f.b1 = g.b1) (h2 : f.b2 = g.b2)
    (h3 : f.b3 = g.b3) (h4 : f.b4 = g.b4) (h5 : f.b5 = g.b5) :
    (judgeTh f).decision = (judgeTh g).decision := by
  have hsum : sum8 f 0 3 = sum8 g 0 3 := by simp only [sum8_0_3, h0, h1, h2, h3]
  simp only [judgeTh, apply_ite Verdict.decision, Verdict.decision_accept,
    Verdict.decision_reject, hsum, h4, h5]

/-- R98: VAL592 examines bytes 0 to 7, whether BITLEN is 0, and PARITY_SENSE. -/
theorem judge592_decision_congr {p q : ParitySense} {n m : BitVec 16} (hn : n = 0#16 ↔ m = 0#16)
    (hp : p = q) (h0 : f.b0 = g.b0) (h1 : f.b1 = g.b1) (h2 : f.b2 = g.b2) (h3 : f.b3 = g.b3)
    (h4 : f.b4 = g.b4) (h5 : f.b5 = g.b5) (h6 : f.b6 = g.b6) (h7 : f.b7 = g.b7) :
    (judge592 p n f).decision = (judge592 q m g).decision := by
  have hsum : sum8 f 0 5 = sum8 g 0 5 := by simp only [sum8_0_5, h0, h1, h2, h3, h4, h5]
  simp only [judge592, apply_ite Verdict.decision, Verdict.decision_accept,
    Verdict.decision_reject, hn, hp, hsum, h0, h3, h4, h5, h6, h7]

end

/-- VALRG compares no sum and no parity (R88). -/
theorem judgeRg_code_ne (f : Row) (s : State) :
    (conclude (judgeRg f) s).code ≠ .checksumMismatch ∧
      (conclude (judgeRg f) s).code ≠ .parityMismatch := by
  obtain ⟨-, hv⟩ | ⟨-, hv⟩ := judgeRg_cases f <;> simp [hv, conclude]

/-- The NB that VAL5 leaves when it ends with OK is its FRAME's (R84). -/
theorem nb_of_judge5_code_ok {f : Row} {s : State} (h : (conclude (judge5 f) s).code = .ok) :
    (conclude (judge5 f) s).nb = norm5 f := by
  obtain ⟨-, hv⟩ := judge5_of_code_ok h
  rw [hv]
  rfl

/-- Settles O40: each clause compares the decisions of two verdicts; VAL5's verdicts are the same. -/
theorem verdictDependsOnlyOnExaminedBytes : Obligations.VerdictDependsOnlyOnExaminedBytes := by
  intro s t s' t' h0 h1 h2 h3 h4
  refine ⟨fun hs ht => ?_, fun h5 hs ht => ?_, fun h5 h6 h7 hn hp hs ht => ?_, fun hf hs ht => ?_⟩ <;>
    cases hs <;> cases ht
  · obtain ⟨hproto, hcode, -⟩ := conclude_congr (judgeRg_decision_congr h0 h1 h2 h3 h4) s t
    exact ⟨hproto, hcode, judgeRg_code_ne s.frame s⟩
  · obtain ⟨hproto, hcode, -, hcsum⟩ :=
      conclude_congr (judgeTh_decision_congr h0 h1 h2 h3 h4 h5) s t
    exact ⟨hproto, hcode, hcsum⟩
  · exact conclude_congr (judge592_decision_congr hn hp h0 h1 h2 h3 h4 h5 h6 h7) s t
  · rw [hf]
    obtain ⟨hproto, hcode, -, hcsum⟩ := conclude_congr (v := judge5 t.frame) rfl s t
    refine ⟨hproto, hcode, hcsum, fun hok => ?_⟩
    rw [nb_of_judge5_code_ok hok, nb_of_judge5_code_ok (hcode ▸ hok)]

/-! ### What a validator leaves unchanged -/

/-- An address that names STATUS is 0x01 (R42). -/
theorem toNat_of_regAt_status {a : RegAddr} (h : regAt a = .status) : a.toNat = 0x01 := by
  unfold regAt at h
  split_ifs at h with h0 h1
  rw [h1]
  rfl

/-- An address that names NB[i] is 0x20 + i (R42). -/
theorem toNat_of_regAt_nb {a : RegAddr} {i : ByteIndex} (h : regAt a = .nb i) :
    a.toNat = 0x20 + i.val := by
  unfold regAt at h
  split_ifs at h with h0 h1 h2 h3 h4 hf hn
  cases h
  dsimp only
  omega

/-- A validator that does not end with OK keeps NB (R82). -/
theorem Judges.conclude_nb {s : State} {i : Instr} {v : Verdict} (hj : Judges s i v)
    (hcode : (conclude v s).code ≠ .ok) : (conclude v s).nb = s.nb := by
  obtain hacc | ⟨-, hnb⟩ := hj.conclude_cases
  · exact absurd hacc.code_ok hcode
  · exact hnb

/-- A verdict concluded shows in STATUS, and in NB where it writes NB. -/
theorem readReg_conclude {v : Verdict} {s : State} {r : RegName} (hstatus : r ≠ .status)
    (hnb : ∀ i, r = .nb i → (conclude v s).nb = s.nb) : readReg (conclude v s) r = readReg s r := by
  cases r with
  | status => exact absurd rfl hstatus
  | nb i => simp only [readReg, hnb i rfl]
  | cmd | result0 | result1 | bitlen | frame i | rbase i | reserved => simp [readReg]

/-- Settles O58, by the register that the address names. -/
theorem validatorFrame : Obligations.ValidatorFrame := by
  intro i s t hi h
  obtain ⟨v, hj, rfl⟩ := exists_judges_of_isValidator hi h
  refine ⟨fun a ha hcode => ?_, conclude_paritySense v s, conclude_pending v s, conclude_readData v s⟩
  refine readReg_conclude (fun hreg => ha (toNat_of_regAt_status hreg)) fun k hreg => ?_
  have haddr := toNat_of_regAt_nb hreg
  have hlt := k.isLt
  exact hj.conclude_nb (hcode (by omega))

end Sys2Proof.Machine

namespace Sys2Proof.Machine

/-! ### The words of the field commands (R67) -/

section
variable {i : Instr} {ia ib : ByteIndex}

theorem opcodeOf_lt (i : Instr) : opcodeOf i < 2 ^ 8 := by
  cases i <;> simp [opcodeOf]

/-- The word of a command with the operands IA and IB. -/
theorem encode_ab_toNat (h : encode i = enc (opcodeOf i) ia ib 0) :
    (encode i).toNat = opcodeOf i + ia.val * 2 ^ 8 + ib.val * 2 ^ 12 :=
  (congrArg BitVec.toNat h).trans <| enc_toNat (opcodeOf_lt i) (Laws.EncodedOpcode.byte_lt ia)
    (Laws.EncodedOpcode.byte_lt ib) (Nat.two_pow_pos 4)

/-- The word of a command with the operand IA alone. -/
theorem encode_a_toNat (h : encode i = enc (opcodeOf i) ia 0 0) :
    (encode i).toNat = opcodeOf i + ia.val * 2 ^ 8 :=
  encode_ab_toNat (ib := 0) h

end

/-! ### Result words and formulas (R11, R103, R106) -/

theorem tc32_natCast (n : Nat) : tc32 n = BitVec.ofNat 32 n := BitVec.ofInt_natCast 32 n

/-- A result in the range of 32-bit two's complement is read back from its word (R11). -/
theorem toInt_tc32 {x : Int} (hlo : -2 ^ 31 ≤ x) (hhi : x < 2 ^ 31) : (tc32 x).toInt = x := by
  rw [tc32, BitVec.toInt_ofInt]
  exact Int.bmod_eq_of_le (by omega) (by omega)

/-- `sext_12` of a 12-bit number: from 0x800 on it is negative (R11). -/
theorem sext_twelve {v : Nat} (h : v < 2 ^ 12) :
    sext 12 v = if v < 0x800 then (v : Int) else (v : Int) - 4096 := by
  rw [sext, Nat.shiftRight_eq_div_pow]
  split <;> omega

/-- Settles O45: shifted left, the field is a multiple of 16 whose sign bit is its own bit 11, and the
shift right divides it by 16. -/
theorem sourceShiftsAreSext12 : Obligations.SourceShiftsAreSext12 := by
  intro raw
  have hlt := raw.isLt
  have hshifted : ((raw.setWidth 16) <<< 4).toNat = raw.toNat * 16 := by
    rw [BitVec.toNat_shiftLeft, BitVec.toNat_setWidth, Nat.shiftLeft_eq]
    omega
  rw [sext_twelve hlt, BitVec.toInt_sshiftRight, BitVec.toInt_eq_toNat_cond, hshifted,
    Int.shiftRight_eq_div_pow]
  split <;> split <;> omega

/-- The table of R106 falls by 22.5 degrees per index. -/
theorem dirTenths_eq : ∀ k < 16, dirTenths k = 3375 - 225 * k := by decide

/-! ### The field-command template, as a command runs it (R100) -/

section
variable {i : Instr} {s : State} {r0 r1 : Int}

theorem exec_refused (h : exec i s = .next (fieldCommand r0 r1 s)) (hp : s.proto = .none) :
    exec i s = .next (raise .notValidated s) := by
  rw [h, fieldCommand_none r0 r1 s hp]

theorem exec_computed (h : exec i s = .next (fieldCommand r0 r1 s)) (hp : s.proto ≠ .none) :
    exec i s = .next (setStatus .ok 0#3 false 0#8 (setResults r0 r1 s)) := by
  rw [h, fieldCommand_some r0 r1 s hp]

/-- Both clauses of a field command, with its results as words. -/
theorem exec_fieldCommand_clauses {w0 w1 : Word} (h : exec i s = .next (fieldCommand r0 r1 s))
    (h0 : tc32 r0 = w0) (h1 : tc32 r1 = w1) :
    (s.proto = .none → exec i s = .next { s with
      code := .notValidated, parfail := 0#3, blset := false, csum := 0#8 }) ∧
    (s.proto ≠ .none → exec i s = .next { s with
      result0 := w0, result1 := w1, code := .ok, parfail := 0#3, blset := false, csum := 0#8 }) := by
  subst h0 h1
  exact ⟨exec_refused h, exec_computed h⟩

end

/-! ### The field commands on every operand -/

/-- Settles O43: `temp5Raw` is the sum of the two masked parts. -/
theorem temp5Result : Obligations.Temp5Result := by
  intro s ia ib raw
  have hraw : temp5Raw (s.nb.get ia) (s.nb.get ib) = raw := temp5Raw_eq ..
  exact ⟨encode_ab_toNat rfl, by omega,
    exec_fieldCommand_clauses rfl (by rw [hraw]; rfl) (by rw [hraw, tc32_natCast])⟩

/-- Settles O44: `tempthRaw` is the sum of its parts, and its sign extension the case split. -/
theorem tempthResult : Obligations.TempthResult := by
  intro s ia ib raw
  have hraw : tempthRaw (s.nb.get ia) (s.nb.get ib) = raw := tempthRaw_eq ..
  have hle : raw ≤ 4095 := by have := (s.nb.get ib).isLt; omega
  exact ⟨encode_ab_toNat rfl, hle,
    exec_fieldCommand_clauses rfl (by rw [hraw, sext_twelve (by omega)]; rfl)
      (by rw [hraw, tc32_natCast])⟩

/-- Settles O46: both results are small enough to be read back from their words. -/
theorem temp592Result : Obligations.Temp592Result := by
  intro s ia ib raw
  have hraw : temp592Raw (s.nb.get ia) (s.nb.get ib) = raw := temp592Raw_eq ..
  have hle : raw ≤ 16383 := by omega
  refine ⟨encode_ab_toNat rfl, hle, exec_refused rfl,
    fun hp => ⟨_, exec_computed rfl hp, ?_, ?_, rfl⟩⟩
  · rw [setStatus_result0, setResults_result0, hraw, toInt_tc32 (by omega) (by omega)]
  · rw [setStatus_result1, setResults_result1, hraw, toInt_tc32 (by omega) (by omega)]
    omega

/-- Settles O47: `windSpeed` is the sum of the five high bits' part and bits 6:4 of the low byte. -/
theorem wspdResult : Obligations.WspdResult := by
  intro s ia ib r
  have hr : windSpeed (s.nb.get ia) (s.nb.get ib) = r := windSpeed_eq ..
  exact ⟨encode_ab_toNat rfl, by omega,
    exec_fieldCommand_clauses rfl (by rw [hr, tc32_natCast]) rfl⟩

/-- Settles O48: the index is below 16, where the table is the formula. -/
theorem wdirResult : Obligations.WdirResult := by
  intro s ia k
  have hk : compassIndex (s.nb.get ia) = k := compassIndex_eq _
  have hdir : dirTenths k = 3375 - 225 * k := dirTenths_eq k (Nat.mod_lt _ (by decide))
  exact ⟨encode_a_toNat rfl,
    exec_fieldCommand_clauses rfl (by rw [hk, hdir, tc32_natCast]) (by rw [hk, tc32_natCast])⟩

/-- Settles O49: `humidity` is the low seven bits. -/
theorem humResult : Obligations.HumResult := by
  intro s ia r
  have hr : humidity (s.nb.get ia) = r := humidity_eq _
  exact ⟨encode_a_toNat rfl, by omega,
    exec_fieldCommand_clauses rfl (by rw [hr, tc32_natCast]) rfl⟩

/-- Settles O50: `rainCounter` is the sum of the two masked parts. -/
theorem rain14Result : Obligations.Rain14Result := by
  intro s ia ib r
  have hr : rainCounter (s.nb.get ia) (s.nb.get ib) = r := rainCounter_eq ..
  exact ⟨encode_ab_toNat rfl, by omega,
    exec_fieldCommand_clauses rfl (by rw [hr, tc32_natCast]) rfl⟩

/-- Settles O51: `bucketTotal` adds a low nibble times 256 and a byte. -/
theorem rgtotalResult : Obligations.RgtotalResult := by
  intro s ia ib r
  have hr : bucketTotal (s.nb.get ia) (s.nb.get ib) = r := bucketTotal_eq ..
  have hlt := (s.nb.get ib).isLt
  exact ⟨encode_ab_toNat rfl, by omega,
    exec_fieldCommand_clauses rfl (by rw [hr, tc32_natCast]) rfl⟩

/-! ### MTYPE5 (R101) -/

/-- The code of MTYPE5 on a 5-in-1 frame of message type `m`. -/
def mtype5Code (m : Nat) : StatusCode := if m = 1 ∨ m = 8 then .ok else .unknownSubtype

section
variable {s : State}

theorem exec_mtype5_of_none (h : s.proto = .none) :
    exec .mtype5 s = .next (raise .notValidated s) :=
  if_pos h

theorem exec_mtype5_of_other (hnone : s.proto ≠ .none) (h5 : s.proto ≠ .fiveInOne) :
    exec .mtype5 s = .next (raise .wrongKind s) :=
  (if_neg hnone).trans (if_pos h5)

theorem exec_mtype5_of_fiveInOne (h : s.proto = .fiveInOne) :
    exec .mtype5 s = .next (setStatus (mtype5Code (messageType s.nb.b2)) 0#3 false 0#8
      (setResults (messageType s.nb.b2) 0 s)) := by
  simp [exec, execMtype5, mtype5Code, h]

end

/-- Settles O42, clause by clause: `messageType` is the low nibble of NB[2]. -/
theorem mtype5Result : Obligations.Mtype5Result := by
  intro s m
  have hm : messageType s.nb.b2 = m := messageType_eq _
  refine ⟨rfl, exec_mtype5_of_none, exec_mtype5_of_other, fun h => ?_⟩
  rw [exec_mtype5_of_fiveInOne h, hm, setResults, tc32_natCast]
  rfl

/-! ### What MTYPE5 and the field commands read and leave unchanged -/

/-- In two states of one NB a field command runs the template on the same two numbers (R100). -/
theorem exec_isFieldCommand_of_same_nb {i : Instr} {s t : State} (hi : isFieldCommand i = true)
    (hnb : s.nb = t.nb) : ∃ r0 r1,
      exec i s = .next (fieldCommand r0 r1 s) ∧ exec i t = .next (fieldCommand r0 r1 t) := by
  cases i with
  | temp5 ia ib | tempth ia ib | temp592 ia ib | wspd ia ib | wdir ia | hum ia | rain14 ia ib
  | rgtotal ia ib => exact ⟨_, _, rfl, hnb ▸ rfl⟩
  | _ => cases hi

/-- What a decode command does in two states at once: it refuses in both with one code, or writes the
same code and results in both. -/
def ActsAlike (i : Instr) (s t : State) : Prop :=
  (∃ code, (code = .notValidated ∨ code = .wrongKind) ∧
    exec i s = .next (raise code s) ∧ exec i t = .next (raise code t)) ∨
  (∃ code r0 r1, exec i s = .next (setStatus code 0#3 false 0#8 (setResults r0 r1 s)) ∧
    exec i t = .next (setStatus code 0#3 false 0#8 (setResults r0 r1 t)))

section
variable {i : Instr} {s t : State}

theorem actsAlike_of_isFieldCommand (hi : isFieldCommand i = true) (hproto : s.proto = t.proto)
    (hnb : s.nb = t.nb) : ActsAlike i s t := by
  obtain ⟨r0, r1, hs, ht⟩ := exec_isFieldCommand_of_same_nb hi hnb
  by_cases hp : s.proto = .none
  · exact .inl ⟨_, .inl rfl, exec_refused hs hp, exec_refused ht (hproto ▸ hp)⟩
  · exact .inr ⟨_, _, _, exec_computed hs hp, exec_computed ht (hproto ▸ hp)⟩

theorem actsAlike_mtype5 (hproto : s.proto = t.proto) (hnb : s.nb = t.nb) :
    ActsAlike .mtype5 s t := by
  by_cases hp : s.proto = .none
  · exact .inl ⟨_, .inl rfl, exec_mtype5_of_none hp, exec_mtype5_of_none (hproto ▸ hp)⟩
  · by_cases h5 : s.proto = .fiveInOne
    · exact .inr ⟨_, _, _, exec_mtype5_of_fiveInOne h5,
        hnb ▸ exec_mtype5_of_fiveInOne (hproto ▸ h5)⟩
    · exact .inl ⟨_, .inr rfl, exec_mtype5_of_other hp h5,
        exec_mtype5_of_other (hproto ▸ hp) (hproto ▸ h5)⟩

/-- MTYPE5 and the field commands read PROTO and NB alone (R100, R101). -/
theorem actsAlike_of_same (hi : isFieldCommand i = true ∨ i = .mtype5)
    (hproto : s.proto = t.proto) (hnb : s.nb = t.nb) : ActsAlike i s t := by
  obtain hi | rfl := hi
  · exact actsAlike_of_isFieldCommand hi hproto hnb
  · exact actsAlike_mtype5 hproto hnb

end

/-- Settles O52: the two states are left with one code and, unless it refuses, the same results. -/
theorem decodeReadsOnlyProtoAndNb : Obligations.DecodeReadsOnlyProtoAndNb := by
  intro i s t s' t' hi hproto hnb hs ht
  obtain ⟨code, hcode, hs', ht'⟩ | ⟨code, r0, r1, hs', ht'⟩ := actsAlike_of_same hi hproto hnb
  all_goals
    rw [hs'] at hs
    rw [ht'] at ht
    cases hs
    cases ht
  · exact ⟨rfl, fun h => by obtain rfl | rfl := hcode <;> simp at h⟩
  · exact ⟨rfl, fun _ => ⟨rfl, rfl⟩⟩

/-- An address that names RESULT0 is 0x02 (R42). -/
theorem toNat_of_regAt_result0 {a : RegAddr} (h : regAt a = .result0) : a.toNat = 0x02 := by
  unfold regAt at h
  split_ifs at h with h0 h1 h2
  rw [h2]
  rfl

/-- An address that names RESULT1 is 0x03 (R42). -/
theorem toNat_of_regAt_result1 {a : RegAddr} (h : regAt a = .result1) : a.toNat = 0x03 := by
  unfold regAt at h
  split_ifs at h with h0 h1 h2 h3
  rw [h3]
  rfl

section
variable {s : State} {r : RegName}

/-- The status fields show in STATUS alone (R25). -/
theorem readReg_setStatus {c : StatusCode} {p : BitVec 3} {b : Bool} {k : Byte} (h : r ≠ .status) :
    readReg (setStatus c p b k s) r = readReg s r := by
  cases r with
  | status => exact absurd rfl h
  | _ => rfl

/-- The results show in RESULT0 and RESULT1 alone (R28). -/
theorem readReg_setResults {r0 r1 : Int} (h0 : r ≠ .result0) (h1 : r ≠ .result1) :
    readReg (setResults r0 r1 s) r = readReg s r := by
  cases r with
  | result0 => exact absurd rfl h0
  | result1 => exact absurd rfl h1
  | _ => rfl

end

/-- STATUS bits 11:8 are the value of PROTO and VALID (R25). -/
theorem statusWord_extract_proto (s : State) :
    (statusWord s).extractLsb' 8 4 = s.proto.toBits ++ BitVec.ofBool (validBit s.proto) := by
  apply BitVec.eq_of_toNat_eq
  have hcode := s.code.toBits.isLt
  have hparfail := s.parfail.isLt
  have hblset := s.blset.toNat_le
  have hvalid := (validBit s.proto).toNat_le
  have hproto := s.proto.toBits.isLt
  rw [BitVec.extractLsb'_toNat, statusWord_toNat, toNat_append_eq_add, BitVec.toNat_ofBool,
    Nat.shiftRight_eq_div_pow]
  omega

/-- STATUS bits 11:8 show PROTO alone. -/
theorem statusWord_extract_of_proto_eq {s t : State} (h : t.proto = s.proto) :
    (statusWord t).extractLsb' 8 4 = (statusWord s).extractLsb' 8 4 := by
  rw [statusWord_extract_proto, statusWord_extract_proto, h]

/-- Settles O59: only the status fields and the two results are written, and each shows at its own
address. -/
theorem fieldCommandFrame : Obligations.FieldCommandFrame := by
  intro i s t hi h
  obtain ⟨code, -, ht, -⟩ | ⟨code, r0, r1, ht, -⟩ := actsAlike_of_same hi (Eq.refl s.proto) rfl
  all_goals
    rw [ht] at h
    cases h
    refine ⟨fun a hstatus hresult0 hresult1 => ?_, rfl, statusWord_extract_of_proto_eq rfl,
      rfl, rfl, rfl⟩
  · exact readReg_setStatus (mt toNat_of_regAt_status hstatus)
  · calc readReg (setStatus code 0#3 false 0#8 (setResults r0 r1 s)) (regAt a)
      _ = readReg (setResults r0 r1 s) (regAt a) :=
        readReg_setStatus (mt toNat_of_regAt_status hstatus)
      _ = readReg s (regAt a) :=
        readReg_setResults (mt toNat_of_regAt_result0 hresult0) (mt toNat_of_regAt_result1 hresult1)

end Sys2Proof.Machine

namespace Sys2Proof.Machine

/-! ### A set baseline stays (R133) -/

/-- A command keeps a set entry of the baseline file, or is RCLR of that entry: RDELTA sets only an
entry that is clear. -/
theorem exec_keeps_set_entry {i : Instr} {s t : State} {k : InstIndex} {e : RainEntry}
    (h : exec i s = .next t) (he : s.rain[k.val]? = some e) (hbv : e.bv = true) :
    t.rain[k.val]? = some e ∨ i = .rclr k := by
  obtain ht | ⟨_, _, inst, e', -, he', hclear, ht⟩ | ⟨inst, rfl, ht⟩ := exec_rain_cases h
  · exact .inl (ht ▸ he)
  · have hne : inst.val ≠ k.val := by
      intro hk
      rw [hk, he] at he'
      cases he'
      simp [hbv] at hclear
    exact .inl (by rw [ht, List.getElem?_set_ne hne, he])
  · by_cases hk : inst = k
    · exact .inr (hk ▸ rfl)
    · have hne : inst.val ≠ k.val := Fin.val_ne_of_ne hk
      exact .inl (by rw [ht, List.getElem?_set_ne hne, he])

/-- Settles O28, by cases on the step: of the accesses only a command and a reset write the baseline
file, and of the commands only RCLR changes a set entry, its own. -/
theorem setBaselineStaysUntilClearedOrReset : Obligations.SetBaselineStaysUntilClearedOrReset := by
  intro s t k e h he hbv
  obtain ⟨-, rfl⟩ | ⟨_, _, -, rfl⟩ | ⟨v, rest, i, hp, hd, hexec⟩ | ⟨_, _, _, -, -, rfl⟩ |
    ⟨_, _, _, _, -, -, rfl⟩ | ⟨_, _, _, -, -, rfl⟩ | ⟨_, _, _, -, -, -, -, rfl⟩ |
    ⟨rest, hp, -⟩ := step_cases h
  · exact .inl he
  · exact .inl he
  · obtain hkept | rfl := exec_keeps_set_entry hexec he hbv
    · exact .inl hkept
    · exact .inr (.inr ⟨v, rest, hp, hd⟩)
  · exact .inl he
  · exact .inl he
  · exact .inl he
  · exact .inl he
  · exact .inr (.inl ⟨rest, hp⟩)

/-! ### RDELTA and RCLR, case by case (R131, R134) -/

section
variable {s : State} {ia ib : ByteIndex} {inst : InstIndex} {e : RainEntry}

theorem exec_rdelta_of_missing (he : s.rain[inst.val]? = none) :
    exec (.rdelta ia ib inst) s = .next (raise .illegalCommand s) := by
  simp [exec, execRdelta, he]

theorem exec_rdelta_of_none (he : s.rain[inst.val]? = some e) (hp : s.proto = .none) :
    exec (.rdelta ia ib inst) s = .next (raise .notValidated s) := by
  simp [exec, execRdelta, he, hp]

theorem exec_rdelta_of_other (he : s.rain[inst.val]? = some e) (hp : s.proto ≠ .none)
    (hkind : s.proto ≠ .fiveInOne ∨ messageType s.nb.b2 ≠ 1) :
    exec (.rdelta ia ib inst) s = .next (raise .wrongKind s) := by
  by_cases h5 : s.proto = .fiveInOne
  · have hm : messageType s.nb.b2 ≠ 1 := hkind.resolve_left (not_not_intro h5)
    simp [exec, execRdelta, he, h5, hm]
  · simp [exec, execRdelta, he, hp, h5]

theorem exec_rdelta_of_typeOne (he : s.rain[inst.val]? = some e) (h5 : s.proto = .fiveInOne)
    (hm : messageType s.nb.b2 = 1) : exec (.rdelta ia ib inst) s =
      .next (measureRain inst (rainCounter (s.nb.get ia) (s.nb.get ib)) e s) := by
  simp [exec, execRdelta, he, h5, hm]

theorem measureRain_of_clear (raw : Nat) (hbv : e.bv = false) : measureRain inst raw e s =
    setStatus .ok 0#3 true 0#8 (setResults 0 raw (setRain inst ⟨true, BitVec.ofNat 14 raw⟩ s)) :=
  if_pos hbv

theorem measureRain_of_set (raw : Nat) (hbv : e.bv = true) : measureRain inst raw e s =
    setStatus .ok 0#3 false 0#8 (setResults (rainDelta raw e.bval) raw s) :=
  if_neg (by simp [hbv])

theorem exec_rclr_of_missing (he : s.rain[inst.val]? = none) :
    exec (.rclr inst) s = .next (raise .illegalCommand s) := by
  simp [exec, execRclr, he]

theorem exec_rclr_of_some (he : s.rain[inst.val]? = some e) : exec (.rclr inst) s =
    .next (setStatus .ok 0#3 false 0#8 (setRain inst RainEntry.clear s)) := by
  simp [exec, execRclr, he]

end

/-- The word of a command with the operands IA, IB and INST (R67). -/
theorem encode_abInst_toNat {i : Instr} {ia ib : ByteIndex} {inst : InstIndex}
    (h : encode i = enc (opcodeOf i) ia ib inst) :
    (encode i).toNat = opcodeOf i + ia.val * 2 ^ 8 + ib.val * 2 ^ 12 + inst.val * 2 ^ 16 :=
  (congrArg BitVec.toNat h).trans <| enc_toNat (opcodeOf_lt i) (Laws.EncodedOpcode.byte_lt ia)
    (Laws.EncodedOpcode.byte_lt ib) inst.isLt

/-- The delta as a number: the baseline is below `2 ^ 14`, so one turn added keeps the difference
from falling below 0 (R132). -/
theorem rainDelta_eq (raw : Nat) (bval : BitVec 14) :
    rainDelta raw bval = ((raw + 2 ^ 14 - bval.toNat) % 2 ^ 14 : Nat) := by
  have hlt := bval.isLt
  unfold rainDelta
  omega

/-- Settles O53, clause by clause: `rainCounter` is the sum of the two masked parts, `messageType` the
low nibble of NB[2]. -/
theorem rdeltaResult : Obligations.RdeltaResult := by
  intro s ia ib inst e he raw
  have hraw : rainCounter (s.nb.get ia) (s.nb.get ib) = raw := rainCounter_eq ..
  rw [← messageType_eq s.nb.b2]
  refine ⟨encode_abInst_toNat rfl, exec_rdelta_of_none he, exec_rdelta_of_other he,
    fun h5 hm hbv => ?_, fun h5 hm hbv => ?_⟩
  · rw [exec_rdelta_of_typeOne he h5 hm, hraw, measureRain_of_clear raw hbv, setResults,
      tc32_natCast]
    rfl
  · rw [exec_rdelta_of_typeOne he h5 hm, hraw, measureRain_of_set raw hbv, setResults,
      rainDelta_eq, tc32_natCast, tc32_natCast]
    rfl

/-- Settles O54: an INST below NUM_RAIN_INST names an entry. -/
theorem rclrResult : Obligations.RclrResult := by
  intro s inst hlt
  have hword : (encode (.rclr inst)).toNat = 0x21 + 0 * 2 ^ 8 + 0 * 2 ^ 12 + inst.val * 2 ^ 16 :=
    encode_abInst_toNat (ia := 0) (ib := 0) rfl
  exact ⟨by omega, exec_rclr_of_some (List.getElem?_eq_getElem hlt)⟩

/-- Settles O56: RDELTA's result on the clear entry gives the baseline, and its result on the entry so
set gives the difference of the counters mod `2 ^ 14`, which is the tips between. -/
theorem rainDeltaCountsTipsSinceBaseline : Obligations.RainDeltaCountsTipsSinceBaseline := by
  intro s t u ia ib inst e tips he hbv h5 hm hexec hrain hu5 hum htips hcount
  obtain ⟨-, -, -, hclear, -⟩ := rdeltaResult s ia ib inst e he
  rw [hclear h5 hm hbv] at hexec
  cases hexec
  have hlt := (List.getElem?_eq_some_iff.mp he).1
  have hset := List.getElem?_set_self (a := RainEntry.mk true
    (BitVec.ofNat 14 ((s.nb.get ia).toNat % 128 * 128 + (s.nb.get ib).toNat % 128))) hlt
  obtain ⟨-, -, -, -, hdelta⟩ :=
    rdeltaResult u ia ib inst _ ((congrArg (·[inst.val]?) hrain).trans hset)
  refine ⟨hset, rfl, rfl, _, hdelta hu5 hum rfl, ?_, rfl, rfl⟩
  simp only [hcount, BitVec.toNat_ofNat]
  omega

/-! ### What a rain command reads and writes (R136) -/

/-- The things that the rain command `i` on the entry `inst` can do: refuse, set the baseline, measure
against it, or clear it. -/
inductive RainEffect (inst : InstIndex) : Instr → (State → State) → Prop
  | refuse {i : Instr} (code : StatusCode) : RainEffect inst i (raise code)
  | setBaseline {ia ib : ByteIndex} (raw : Nat) : RainEffect inst (.rdelta ia ib inst) fun s =>
      setStatus .ok 0#3 true 0#8 (setResults 0 raw (setRain inst ⟨true, BitVec.ofNat 14 raw⟩ s))
  | measure {ia ib : ByteIndex} (r0 r1 : Int) : RainEffect inst (.rdelta ia ib inst) fun s =>
      setStatus .ok 0#3 false 0#8 (setResults r0 r1 s)
  | clear : RainEffect inst (.rclr inst) fun s =>
      setStatus .ok 0#3 false 0#8 (setRain inst RainEntry.clear s)

section
variable {s t : State} {i : Instr} {ia ib : ByteIndex} {inst : InstIndex}

/-- In two states of one PROTO, NB and entry, RDELTA does one thing (R131). -/
theorem exec_rdelta_effect (hproto : t.proto = s.proto) (hnb : t.nb = s.nb)
    (hentry : t.rain[inst.val]? = s.rain[inst.val]?) : ∃ f, RainEffect inst (.rdelta ia ib inst) f ∧
      exec (.rdelta ia ib inst) s = .next (f s) ∧ exec (.rdelta ia ib inst) t = .next (f t) := by
  cases he : s.rain[inst.val]? with
  | none =>
    exact ⟨_, .refuse _, exec_rdelta_of_missing he, exec_rdelta_of_missing (hentry.trans he)⟩
  | some e =>
    have he' := hentry.trans he
    by_cases hp : s.proto = .none
    · exact ⟨_, .refuse _, exec_rdelta_of_none he hp, exec_rdelta_of_none he' (hproto.trans hp)⟩
    by_cases hkind : s.proto = .fiveInOne ∧ messageType s.nb.b2 = 1
    · obtain ⟨h5, hm⟩ := hkind
      rw [exec_rdelta_of_typeOne he h5 hm,
        exec_rdelta_of_typeOne he' (hproto.trans h5) (hnb ▸ hm), hnb]
      cases hbv : e.bv with
      | false =>
        rw [measureRain_of_clear _ hbv, measureRain_of_clear _ hbv]
        exact ⟨_, .setBaseline _, rfl, rfl⟩
      | true =>
        rw [measureRain_of_set _ hbv, measureRain_of_set _ hbv]
        exact ⟨_, .measure _ _, rfl, rfl⟩
    · have hother := not_and_or.mp hkind
      exact ⟨_, .refuse _, exec_rdelta_of_other he hp hother,
        exec_rdelta_of_other he' (hproto ▸ hp) (hproto ▸ hnb ▸ hother)⟩

/-- In two states that both have the entry, or both lack it, RCLR does one thing (R134). -/
theorem exec_rclr_effect (hentry : t.rain[inst.val]? = s.rain[inst.val]?) :
    ∃ f, RainEffect inst (.rclr inst) f ∧
      exec (.rclr inst) s = .next (f s) ∧ exec (.rclr inst) t = .next (f t) := by
  cases he : s.rain[inst.val]? with
  | none => exact ⟨_, .refuse _, exec_rclr_of_missing he, exec_rclr_of_missing (hentry.trans he)⟩
  | some e => exact ⟨_, .clear, exec_rclr_of_some he, exec_rclr_of_some (hentry.trans he)⟩

/-- A rain command does one thing in two states that agree on what it reads: PROTO, NB and its own
entry (R131, R134). -/
theorem exec_rain_effect (hi : i = .rdelta ia ib inst ∨ i = .rclr inst)
    (hproto : t.proto = s.proto) (hnb : t.nb = s.nb)
    (hentry : t.rain[inst.val]? = s.rain[inst.val]?) :
    ∃ f, RainEffect inst i f ∧ exec i s = .next (f s) ∧ exec i t = .next (f t) := by
  obtain rfl | rfl := hi
  · exact exec_rdelta_effect hproto hnb hentry
  · exact exec_rclr_effect hentry

end

section
variable {s t : State} {i : Instr} {inst : InstIndex} {f : State → State}

/-- A rain command keeps every entry but its own (R136). -/
theorem RainEffect.rain_other (hf : RainEffect inst i f) {k : Nat} (hk : k ≠ inst.val) :
    (f s).rain[k]? = s.rain[k]? := by
  cases hf with
  | refuse _ | measure _ _ => rfl
  | setBaseline _ | clear => exact List.getElem?_set_ne hk.symm

/-- Writing an entry leaves two states alike there if they were alike: both have it or both lack it. -/
theorem setRain_entry_congr (e : RainEntry) (h : t.rain[inst.val]? = s.rain[inst.val]?) :
    (setRain inst e t).rain[inst.val]? = (setRain inst e s).rain[inst.val]? := by
  rw [setRain_rain, setRain_rain, List.getElem?_set_self', List.getElem?_set_self', h]

/-- States alike in the entry and the results are left alike there, and in CODE and BLSET. -/
theorem RainEffect.congr (hf : RainEffect inst i f) (h0 : t.result0 = s.result0)
    (h1 : t.result1 = s.result1) (hentry : t.rain[inst.val]? = s.rain[inst.val]?) :
    (f t).rain[inst.val]? = (f s).rain[inst.val]? ∧ (f t).result0 = (f s).result0 ∧
      (f t).result1 = (f s).result1 ∧ (f t).code = (f s).code ∧ (f t).blset = (f s).blset := by
  cases hf with
  | refuse _ => exact ⟨hentry, h0, h1, rfl, rfl⟩
  | setBaseline _ => exact ⟨setRain_entry_congr _ hentry, rfl, rfl, rfl, rfl⟩
  | measure _ _ => exact ⟨hentry, rfl, rfl, rfl, rfl⟩
  | clear => exact ⟨setRain_entry_congr _ hentry, h0, h1, rfl, rfl⟩

/-- A rain command keeps PROTO, the parameter and the host's side (R131, R134). -/
theorem RainEffect.keeps (hf : RainEffect inst i f) : (f s).proto = s.proto ∧
    (f s).paritySense = s.paritySense ∧ (f s).pending = s.pending ∧
      (f s).readData = s.readData := by
  cases hf <;> exact ⟨rfl, rfl, rfl, rfl⟩

/-- An entry of the baseline file shows in its own RBASE register alone (R48). -/
theorem readReg_setRain {e : RainEntry} {r : RegName} (h : r ≠ .rbase inst) :
    readReg (setRain inst e s) r = readReg s r := by
  cases r with
  | rbase k =>
    have hne : inst.val ≠ k.val := fun hk => h (congrArg RegName.rbase (Fin.ext hk.symm))
    exact congrArg rbaseWord (List.getElem?_set_ne hne)
  | _ => rfl

/-- A rain command shows in STATUS, in its own RBASE register and, unless it is RCLR, in the results. -/
theorem RainEffect.readReg_eq (hf : RainEffect inst i f) {r : RegName} (hstatus : r ≠ .status)
    (hrbase : r ≠ .rbase inst) (h0 : i ≠ .rclr inst → r ≠ .result0)
    (h1 : i ≠ .rclr inst → r ≠ .result1) : readReg (f s) r = readReg s r := by
  cases hf with
  | refuse _ => exact readReg_setStatus hstatus
  | setBaseline _ =>
    rw [readReg_setStatus hstatus, readReg_setResults (h0 nofun) (h1 nofun), readReg_setRain hrbase]
  | measure _ _ => rw [readReg_setStatus hstatus, readReg_setResults (h0 nofun) (h1 nofun)]
  | clear => rw [readReg_setStatus hstatus, readReg_setRain hrbase]

end

/-- Settles O57: the one thing that the command does in both states keeps the other entries of each and
leaves the two alike. -/
theorem rainInstancesAreIndependent : Obligations.RainInstancesAreIndependent := by
  intro s t s' t' ia ib inst i hi hs
  constructor
  · intro k hk
    obtain ⟨f, hf, hfs, -⟩ := exec_rain_effect hi (Eq.refl s.proto) rfl rfl
    rw [hfs] at hs
    cases hs
    exact hf.rain_other hk
  · intro hproto hnb h0 h1 hentry ht
    obtain ⟨f, hf, hfs, hft⟩ := exec_rain_effect hi hproto hnb hentry
    rw [hfs] at hs
    rw [hft] at ht
    cases hs
    cases ht
    exact hf.congr h0 h1 hentry

/-- An address that names RBASE[i] is 0x30 + i (R42). -/
theorem toNat_of_regAt_rbase {a : RegAddr} {i : InstIndex} (h : regAt a = .rbase i) :
    a.toNat = 0x30 + i.val := by
  unfold regAt at h
  split_ifs at h with h0 h1 h2 h3 h4 hf hn hr
  cases h
  dsimp only
  omega

/-- Settles O60, by what the command can do: each register written shows at its own address. -/
theorem rainCommandFrame : Obligations.RainCommandFrame := by
  intro ia ib inst s t
  constructor <;> intro h
  · obtain ⟨f, hf, hfs, -⟩ := exec_rdelta_effect (Eq.refl s.proto) rfl rfl
    rw [hfs] at h
    cases h
    refine ⟨fun a hstatus hresult0 hresult1 hrbase => ?_, hf.keeps⟩
    exact hf.readReg_eq (mt toNat_of_regAt_status hstatus) (mt toNat_of_regAt_rbase hrbase)
      (fun _ => mt toNat_of_regAt_result0 hresult0) (fun _ => mt toNat_of_regAt_result1 hresult1)
  · obtain ⟨f, hf, hfs, -⟩ := exec_rclr_effect (Eq.refl s.rain[inst.val]?)
    rw [hfs] at h
    cases h
    refine ⟨fun a hstatus hrbase => ?_, hf.keeps⟩
    exact hf.readReg_eq (mt toNat_of_regAt_status hstatus) (mt toNat_of_regAt_rbase hrbase)
      (absurd rfl) (absurd rfl)

end Sys2Proof.Machine

namespace Sys2Proof.Machine

/-! ### NOP and the other words with OPC 0x00 (R140) -/

/-- A word with OPC 0x00 that is not 0 is no command, whatever NUM_RAIN_INST is (R64, R140). -/
theorem decode_of_opcField_zero {numInst : Nat} {w : Word} (hopc : opcField w = 0) (hw : w ≠ 0#32) :
    decode numInst w = .error .nopWithFields := by
  simp [decode, hopc, hw]

/-- A write to CMD of a word that the decoder rejects is stored and raises ILLEGAL_COMMAND (R50, R153). -/
theorem step_of_decode_error {s : State} {w : Word} {rest : List HostEvent} {e : IllegalWord}
    (hp : s.pending = .write 0x00#8 w :: rest) (hd : decode s.numRainInst w = .error e) :
    step s = .next (raise .illegalCommand { s with pending := rest, readData := none, cmd := w }) := by
  rw [step_of_pending_write hp, hostWrite_cmd]
  exact writeCmd_error hd

/-- Settles O32: the word 0 decodes to NOP, and the decoder rejects every other word with OPC 0x00. -/
theorem nopChangesNothing : Obligations.NopChangesNothing := by
  refine ⟨rfl, fun _ => rfl, fun s w rest hp hopc => ⟨?_, fun hw => ?_⟩⟩
  · rintro rfl
    exact stepRunsDecodedCommand s 0#32 rest .nop hp rfl
  · exact step_of_decode_error hp (decode_of_opcField_zero ((opcField_eq w).trans hopc) hw)

end Sys2Proof.Machine

namespace Sys2Proof.Machine

/-! ### The status invariant (R94, R100, R131, R152) -/

section
variable {s t : State}

/-- The invariant speaks of PROTO and the status fields alone, and loses nothing when PROTO becomes NONE. -/
theorem State.StatusFits.of_same (hs : s.StatusFits) (hcode : t.code = s.code)
    (hparfail : t.parfail = s.parfail) (hblset : t.blset = s.blset) (hcsum : t.csum = s.csum)
    (hproto : t.proto = s.proto ∨ t.proto = .none) : t.StatusFits := by
  obtain ⟨hpf, hpar, hbl, hk, hrej⟩ := hs
  refine ⟨?_, ?_, ?_, ?_, fun hc => ?_⟩
  · rwa [hparfail, hcode]
  · rwa [hparfail, hcode]
  · rwa [hblset, hcode]
  · rwa [hcsum, hcode]
  · exact hproto.elim (fun h => h.trans (hrej (hcode ▸ hc))) id

/-- OK stands with any BLSET, CSUM and PROTO, but with no parity mask (R94). -/
theorem State.StatusFits.of_code_ok (hcode : t.code = .ok) (hparfail : t.parfail = 0#3) :
    t.StatusFits := by
  constructor <;> simp [hcode, hparfail]

/-- With no mask, no BLSET and no sum, every code but PARITY_MISMATCH fits, provided that PROTO is NONE or
the code is one of the three that may stand with a validated frame (R152). -/
theorem State.StatusFits.of_fields_zero (hparfail : t.parfail = 0#3) (hblset : t.blset = false)
    (hcsum : t.csum = 0#8) (hcode : t.code ≠ .parityMismatch)
    (hproto : t.code = .illegalCommand ∨ t.code = .wrongKind ∨ t.code = .unknownSubtype ∨
      t.proto = .none) : t.StatusFits := by
  refine ⟨by simp [hparfail], fun h => absurd h hcode, by simp [hblset], by simp [hcsum],
    fun hrejected => ?_⟩
  obtain h | h | h | h := hproto
  · simp [h] at hrejected
  · simp [h] at hrejected
  · simp [h] at hrejected
  · exact h

/-- A failed sum or parity check may report a mask and the sum, and leaves no validated frame (R94). -/
theorem State.StatusFits.of_failed_check (hblset : t.blset = false) (hproto : t.proto = .none)
    (hcode : t.code = .checksumMismatch ∨ t.code = .parityMismatch ∧ t.parfail ≠ 0#3) :
    t.StatusFits := by
  obtain h | ⟨h, hpf⟩ := hcode
  · constructor <;> simp [h, hblset, hproto]
  · constructor <;> simp [h, hpf, hblset, hproto]

/-- A refusal fits: ILLEGAL_COMMAND and WRONG_KIND on any frame, NOT_VALIDATED only without one (R100). -/
theorem State.StatusFits.of_raise {c : StatusCode}
    (hc : c = .illegalCommand ∨ c = .wrongKind ∨ c = .notValidated ∧ s.proto = .none) :
    (raise c s).StatusFits := by
  obtain rfl | rfl | ⟨rfl, hproto⟩ := hc
  · exact .of_fields_zero rfl rfl rfl (by simp) (.inl rfl)
  · exact .of_fields_zero rfl rfl rfl (by simp) (.inr (.inl rfl))
  · exact .of_fields_zero rfl rfl rfl (by simp) (.inr (.inr (.inr hproto)))

/-- Every verdict's conclusion fits: a mask or a sum is reported only with the code that goes with it. -/
theorem Judges.conclude_statusFits {i : Instr} {v : Verdict} (hj : Judges s i v) :
    (conclude v s).StatusFits := by
  have structural : (conclude (.reject .structuralMismatch 0#3 0#8) s).StatusFits :=
    .of_fields_zero rfl rfl rfl (by simp [conclude]) (.inr (.inr (.inr rfl)))
  cases hj with
  | val5 =>
    obtain ⟨-, hv⟩ | ⟨-, -, hv⟩ | ⟨-, -, hv⟩ := judge5_cases s.frame <;> rw [hv]
    · exact structural
    · exact .of_code_ok rfl rfl
    · exact .of_failed_check rfl rfl (.inl rfl)
  | valrg =>
    obtain ⟨-, hv⟩ | ⟨-, hv⟩ := judgeRg_cases s.frame <;> rw [hv]
    · exact .of_code_ok rfl rfl
    · exact structural
  | valth =>
    obtain ⟨-, hv⟩ | ⟨-, -, hv⟩ | ⟨-, -, -, hv⟩ := judgeTh_cases s.frame <;> rw [hv]
    · exact structural
    · exact .of_failed_check rfl rfl (.inl rfl)
    · exact .of_code_ok rfl rfl
  | val592 =>
    obtain ⟨-, hv⟩ | ⟨-, -, hv⟩ | ⟨-, -, -, -, hv⟩ | ⟨-, -, -, -, hpf, hv⟩ | ⟨-, -, -, -, -, hv⟩ :=
      judge592_cases s.paritySense s.bitlen s.frame <;> rw [hv]
    · exact .of_fields_zero rfl rfl rfl (by simp [conclude]) (.inr (.inr (.inr rfl)))
    · exact structural
    · exact .of_failed_check rfl rfl (.inl rfl)
    · exact .of_failed_check rfl rfl (.inr ⟨rfl, hpf⟩)
    · exact .of_code_ok rfl rfl

/-- A field command refuses only where PROTO is NONE (R100). -/
theorem fieldCommand_statusFits (r0 r1 : Int) (s : State) : (fieldCommand r0 r1 s).StatusFits := by
  obtain ⟨hproto, ht⟩ | ⟨-, ht⟩ := fieldCommand_cases r0 r1 s <;> rw [ht]
  · exact .of_raise (.inr (.inr ⟨rfl, hproto⟩))
  · exact .of_code_ok rfl rfl

/-- MTYPE5 refuses, or ends with OK or UNKNOWN_SUBTYPE, which keeps PROTO (R101). -/
theorem execMtype5_statusFits (h : execMtype5 s = .next t) : t.StatusFits := by
  obtain ⟨hproto, ht⟩ | ⟨-, -, ht⟩ | ⟨_, -, rfl | rfl, -, ht⟩ := execMtype5_cases s
  all_goals
    rw [ht] at h
    cases h
  · exact .of_raise (.inr (.inr ⟨rfl, hproto⟩))
  · exact .of_raise (.inr (.inl rfl))
  · exact .of_code_ok rfl rfl
  · exact .of_fields_zero rfl rfl rfl (by simp) (.inr (.inr (.inl rfl)))

/-- RDELTA reports BLSET only with OK (R131). -/
theorem execRdelta_statusFits {ia ib : ByteIndex} {inst : InstIndex}
    (h : execRdelta ia ib inst s = .next t) : t.StatusFits := by
  obtain ⟨-, ht⟩ | ⟨-, hproto, ht⟩ | ⟨-, -, -, ht⟩ | ⟨e, -, -, -, ht⟩ := execRdelta_cases ia ib inst s
  all_goals
    rw [ht] at h
    cases h
  · exact .of_raise (.inl rfl)
  · exact .of_raise (.inr (.inr ⟨rfl, hproto⟩))
  · exact .of_raise (.inr (.inl rfl))
  · obtain ⟨-, hm⟩ | ⟨-, hm⟩ :=
      measureRain_cases inst (rainCounter (s.nb.get ia) (s.nb.get ib)) e s <;> rw [hm]
    · exact .of_code_ok rfl rfl
    · exact .of_code_ok rfl rfl

/-- RCLR ends with OK, or with ILLEGAL_COMMAND on a missing entry (R134). -/
theorem execRclr_statusFits {inst : InstIndex} (h : execRclr inst s = .next t) : t.StatusFits := by
  obtain ⟨-, ht⟩ | ⟨-, ht⟩ := execRclr_cases inst s
  all_goals
    rw [ht] at h
    cases h
  · exact .of_raise (.inl rfl)
  · exact .of_code_ok rfl rfl

/-- Every command keeps the status invariant; NOP alone needs that it held before (R140). -/
theorem State.StatusFits.after_exec (hs : s.StatusFits) {i : Instr} (h : exec i s = .next t) :
    t.StatusFits := by
  obtain ⟨-, rfl⟩ | ⟨-, rfl⟩ | ⟨-, rfl⟩ | ⟨-, rfl⟩ | ⟨-, rfl⟩ | ⟨-, hm⟩ | ⟨-, r0, r1, rfl⟩ |
    ⟨_, _, _, -, hd⟩ | ⟨_, -, hc⟩ := exec_cases h
  · exact hs
  · exact Judges.val5.conclude_statusFits
  · exact Judges.valrg.conclude_statusFits
  · exact Judges.valth.conclude_statusFits
  · exact Judges.val592.conclude_statusFits
  · exact execMtype5_statusFits hm
  · exact fieldCommand_statusFits r0 r1 s
  · exact execRdelta_statusFits hd
  · exact execRclr_statusFits hc

end

/-- Settles O20, by cases on the step: only a command, an illegal word and a reset write the status, and
an access that writes PROTO without it leaves NONE. -/
theorem stepKeepsStatusFits : Obligations.StepKeepsStatusFits := by
  intro s t hs h
  obtain ⟨-, rfl⟩ | ⟨_, _, -, rfl⟩ | ⟨v, rest, _, -, -, hexec⟩ | ⟨_, _, _, -, -, rfl⟩ |
    ⟨_, _, _, _, -, -, rfl⟩ | ⟨_, _, _, -, -, rfl⟩ | ⟨_, _, _, -, -, -, -, rfl⟩ |
    ⟨_, -, rfl⟩ := step_cases h
  · exact hs
  · exact hs.of_same rfl rfl rfl rfl (.inl rfl)
  · have hready : { s with pending := rest, readData := none, cmd := v }.StatusFits :=
      hs.of_same rfl rfl rfl rfl (.inl rfl)
    exact hready.after_exec hexec
  · exact .of_raise (.inl rfl)
  · exact hs.of_same rfl rfl rfl rfl (.inr rfl)
  · exact hs.of_same rfl rfl rfl rfl (.inr rfl)
  · exact hs.of_same rfl rfl rfl rfl (.inl rfl)
  · exact .of_code_ok rfl rfl

/-! ### Illegal words (R64, R153) -/

/-- The decoder gives every illegal word an error (R64). -/
theorem exists_decode_error_of_not_legalWord {numInst : Nat} {w : Word}
    (h : legalWord numInst w = false) : ∃ e, decode numInst w = .error e := by
  cases hd : decode numInst w with
  | ok i =>
    have hlegal : legalWord numInst w = true := (decodeAcceptsExactlyLegalWords numInst w).mp ⟨i, hd⟩
    exact absurd hlegal (by simp [h])
  | error e => exact ⟨e, rfl⟩

/-- Settles O8: the decoder rejects the word, and `raise` writes the status alone. -/
theorem illegalWordSetsStatusOnly : Obligations.IllegalWordSetsStatusOnly := by
  intro s v rest hp hillegal
  obtain ⟨e, hd⟩ := exists_decode_error_of_not_legalWord hillegal
  exact step_of_decode_error hp hd

/-! ### Every step completes (R150) -/

/-- A write to CMD completes, whether its word is legal or not. -/
theorem writeCmd_next (v : Word) (s : State) : ∃ t, writeCmd v s = .next t := by
  cases hd : decode s.numRainInst v with
  | ok i =>
    rw [writeCmd_ok hd]
    exact exec_next i _
  | error e => exact ⟨_, writeCmd_error hd⟩

/-- A write to any address completes: only CMD's runs anything. -/
theorem hostWrite_next (a : RegAddr) (v : Word) (s : State) : ∃ t, hostWrite a v s = .next t := by
  unfold hostWrite
  cases regAt a with
  | cmd => exact writeCmd_next v s
  | status | result0 | result1 | bitlen | frame | nb | rbase | reserved => exact ⟨_, rfl⟩

/-- A reset puts the reset state in place of every element and keeps the later accesses (R170). -/
theorem step_of_pending_reset {s : State} {rest : List HostEvent} (h : s.pending = .reset :: rest) :
    step s = .next (State.powerOn s.paritySense s.numRainInst rest) := by
  simp [step, h, perform, State.numRainInst]

/-- Settles O23, by cases on the oldest pending event: a wait, a read, a write or a reset. -/
theorem everyStepCompletes : Obligations.EveryStepCompletes := by
  intro s
  cases hp : s.pending with
  | nil => exact ⟨s, step_of_pending_nil hp⟩
  | cons event rest =>
    cases event with
    | read a => exact ⟨_, step_of_pending_read hp⟩
    | write a v =>
      rw [step_of_pending_write hp]
      exact hostWrite_next a v _
    | reset => exact ⟨_, step_of_pending_reset hp⟩

end Sys2Proof.Machine

namespace Sys2Proof.Machine

/-! ### Decoding without a validated row (R174, R175) -/

/-- A command that a word decodes to names only rain entries the block has (R64). -/
theorem wellFormed_of_decode {numInst : Nat} {w : Word} {i : Instr} (h : decode numInst w = .ok i) :
    i.wellFormed numInst = true :=
  (encodeInvertsDecode numInst w i h).2

/-- Settles O41: the field-command template, MTYPE5 and RDELTA each refuse when PROTO is NONE; RDELTA
comes to that check because its entry exists. -/
theorem decodeRefusedWithoutValidation : Obligations.DecodeRefusedWithoutValidation := by
  intro s i hp hwf hi
  obtain hfield | rfl | ⟨ia, ib, inst, rfl⟩ := hi
  · obtain ⟨r0, r1, hrun, -⟩ := exec_isFieldCommand_of_same_nb hfield (rfl : s.nb = s.nb)
    exact exec_refused hrun hp
  · exact exec_mtype5_of_none hp
  · have hlt : inst.val < s.rain.length := of_decide_eq_true hwf
    exact exec_rdelta_of_none (List.getElem?_eq_getElem hlt) hp

section
variable {s : State} {a : RegAddr} {v w : Word} {rest : List HostEvent} {i : Instr}

/-- A write to BITLEN or to a byte of FRAME changes the row and sets PROTO to NONE (R45). -/
theorem step_of_row_write (hp : s.pending = .write a v :: rest)
    (ha : a.toNat = 0x04 ∨ 0x10 ≤ a.toNat ∧ a.toNat ≤ 0x18) :
    ∃ f n, step s = .next
      { s with pending := rest, readData := none, frame := f, bitlen := n, proto := .none } := by
  obtain ⟨-, -, -, -, hbitlen, hframe, -⟩ := regAt_spec a
  rw [step_of_pending_write hp]
  obtain ha | ⟨hlo, hhi⟩ := ha
  · exact ⟨_, _, hostWrite_of_bitlen v (hbitlen ha)⟩
  · have hreg := hframe ⟨a.toNat - 0x10, by omega⟩ (by dsimp only; omega)
    exact ⟨_, _, hostWrite_of_frame v hreg⟩

/-- A decode command written to CMD while PROTO is NONE is stored and raises NOT_VALIDATED (R50, R174). -/
theorem step_of_decode_refused (hp : s.pending = .write 0x00#8 w :: rest)
    (hd : decode s.numRainInst w = .ok i) (hproto : s.proto = .none)
    (hi : isFieldCommand i = true ∨ i = .mtype5 ∨ (∃ ia ib inst, i = .rdelta ia ib inst)) :
    step s = .next (raise .notValidated { s with pending := rest, readData := none, cmd := w }) := by
  rw [stepRunsDecodedCommand s w rest i hp hd]
  exact decodeRefusedWithoutValidation _ i hproto (wellFormed_of_decode hd) hi

end

/-- Settles O16: the first step leaves PROTO = NONE and the number of rain entries as it was, so the second
runs the same command and it refuses. -/
theorem rowWriteInvalidatesDecode : Obligations.RowWriteInvalidatesDecode := by
  intro s a v w rest i ha hp hd hi
  obtain ⟨f, n, hrow⟩ := step_of_row_write hp ha
  exact ⟨_, ⟨_, hrow, _, step_of_decode_refused rfl hd rfl hi, rfl⟩,
    rfl, rfl, rfl, rfl, rfl, rfl, rfl, rfl, rfl⟩

/-! ### Power-on reset (R170) -/

/-- Settles O18: the step's equation for a reset, with the reset state written out. -/
theorem resetEventRestoresResetValues : Obligations.ResetEventRestoresResetValues :=
  fun _ _ => step_of_pending_reset

end Sys2Proof.Machine
